-- ==== Sys2Proof/Word.lean ====
section
/-! DEFINITION. The widths of the S-DES block cipher core (00_scope.md R8, R9). A sequence of width W is a `BitVec W`
whose element 0 is its most significant bit (R11). -/

namespace Sys2Proof

/-- A command word (`CMD_W` = 32). -/
abbrev Word := BitVec 32

/-- A 10-bit master key (`W_KEY`). -/
abbrev Key := BitVec 10

/-- An 8-bit block (`W_BLK`); subkeys and initialization vectors have the same width (`W_SUBKEY`, `W_IV`). -/
abbrev Block := BitVec 8

/-- A 4-bit half-block (`W_HALF`). -/
abbrev Half := BitVec 4

end Sys2Proof
end

