-- ==== Sys2Proof/Syntax.lean ====
section
/-! DEFINITION. The ten commands of the core (30_encoding.md R74) and the lines of its assembler syntax (R79). -/

namespace Sys2Proof

/-- The mode of a message session (10_state.md R27, MSG_MODE): 0 = ECB, 1 = CBC. -/
inductive Mode where
  | ecb
  | cbc
  deriving DecidableEq, Repr

/-- The direction of a message session (10_state.md R27, MSG_DIR): 0 = encrypt, 1 = decrypt. -/
inductive Dir where
  | enc
  | dec
  deriving DecidableEq, Repr

/-- A command with its operands, one constructor per row of spec/opcode_table.json. The operand types carry the
exact widths, so a wrong length or a non-bit cannot be written (00_scope.md R14). -/
inductive Instr where
  | nop
  | ldkey (key : Key)
  | encb (blk : Block)
  | decb (blk : Block)
  | ldiv (iv : Block)
  | msgbegin (mode : Mode) (dir : Dir) (len : BitVec 16)
  | msgblk (blk : Block)
  | msgabort
  | rdk1
  | rdk2
  deriving DecidableEq, Repr

/-- The ten mnemonics of 30_encoding.md R74. -/
inductive Op where
  | nop
  | ldkey
  | encb
  | decb
  | ldiv
  | msgbegin
  | msgblk
  | msgabort
  | rdk1
  | rdk2
  deriving DecidableEq, Repr

/-- The four formats of 30_encoding.md R72. -/
inductive Format where
  | n
  | k
  | b
  | m
  deriving DecidableEq, Repr

/-- A `<key>` or `<blk>` operand of the assembler (R79): digits in element order, or a hardware value. -/
inductive Literal where
  | bits (elements : List Bool)
  | hex (value : Nat)
  deriving DecidableEq, Repr

/-- One line of the assembler (R79). `word` is the directive `.word <hex32>`. -/
inductive AsmLine where
  | nop
  | ldkey (key : Literal)
  | encb (blk : Literal)
  | decb (blk : Literal)
  | ldiv (blk : Literal)
  | msgbegin (mode : Mode) (dir : Dir) (len : Nat)
  | msgblk (blk : Literal)
  | msgabort
  | rdk1
  | rdk2
  | word (value : Nat)
  deriving DecidableEq, Repr

end Sys2Proof
end

