-- ==== Sys2Proof/WellFormed.lean ====
section
/-! DEFINITION. The operand checks of the assembler syntax (30_encoding.md R79). A term of `Instr` needs no check: every
operand has its exact width by type (00_scope.md R14, 20_memory.md R55), so every `Instr` is well-formed. -/

namespace Sys2Proof

/-- A bit string has exactly `width` digits (R79); a hexadecimal hardware value fits `width` bits. -/
def Literal.fits (width : Nat) : Literal → Bool
  | .bits elements => elements.length == width
  | .hex value => decide (value < 2 ^ width)

/-- The operands of a line meet R79: 10 digits for a key, 8 for a block, a bit count of 0..65535, a 32-bit raw word. -/
def AsmLine.wf : AsmLine → Bool
  | .nop => true
  | .ldkey key => key.fits 10
  | .encb blk => blk.fits 8
  | .decb blk => blk.fits 8
  | .ldiv blk => blk.fits 8
  | .msgbegin _ _ len => decide (len ≤ 65535)
  | .msgblk blk => blk.fits 8
  | .msgabort => true
  | .rdk1 => true
  | .rdk2 => true
  | .word value => decide (value < 2 ^ 32)

end Sys2Proof
end

