-- ==== Sys2Proof/Decode.lean ====
section
/-! DEFINITION. The command encoding (30_encoding.md): the opcode map R74, field extraction R73, the total decoder R71,
and the encoder written from the layouts of R72. -/

namespace Sys2Proof

/-- A row of the opcode map (R74). -/
structure OpcodeRow where
  opc : BitVec 4
  op : Op
  format : Format
  pattern : Word
  mask : Word
  deriving DecidableEq, Repr

/-- The opcode map of R74, row by row. -/
def opcodeMap : List OpcodeRow :=
  [ { opc := 0x0, op := .nop, format := .n, pattern := 0x00000000, mask := 0xFFFFFFFF },
    { opc := 0x1, op := .ldkey, format := .k, pattern := 0x10000000, mask := 0xFFFFFC00 },
    { opc := 0x2, op := .encb, format := .b, pattern := 0x20000000, mask := 0xFFFFFF00 },
    { opc := 0x3, op := .decb, format := .b, pattern := 0x30000000, mask := 0xFFFFFF00 },
    { opc := 0x4, op := .ldiv, format := .b, pattern := 0x40000000, mask := 0xFFFFFF00 },
    { opc := 0x5, op := .msgbegin, format := .m, pattern := 0x50000000, mask := 0xFFFC0000 },
    { opc := 0x6, op := .msgblk, format := .b, pattern := 0x60000000, mask := 0xFFFFFF00 },
    { opc := 0x7, op := .msgabort, format := .n, pattern := 0x70000000, mask := 0xFFFFFFFF },
    { opc := 0x8, op := .rdk1, format := .n, pattern := 0x80000000, mask := 0xFFFFFFFF },
    { opc := 0x9, op := .rdk2, format := .n, pattern := 0x90000000, mask := 0xFFFFFFFF } ]

/-- The bits a format marks reserved (R72), as a mask. -/
def Format.reserved : Format → Word
  | .n => 0x0FFFFFFF
  | .k => 0x0FFFFC00
  | .b => 0x0FFFFF00
  | .m => 0x0FFC0000

/-- Why a word is illegal: a reserved opcode 0xA..0xF (R75), or a reserved bit set (R76). -/
inductive Illegal where
  | reservedOpcode
  | reservedBits
  deriving DecidableEq, Repr

/-- What a word is: exactly one command, or an illegal word (R71). -/
inductive Decoded where
  | command (i : Instr)
  | illegal (why : Illegal)
  deriving DecidableEq, Repr

/-- `OPC = cmd_word[31:28]` (R70). -/
def fieldOpc (w : Word) : BitVec 4 := w.extractLsb' 28 4

/-- `KEY10 = cmd_word[9:0]` (R73). -/
def fieldKey10 (w : Word) : Key := w.extractLsb' 0 10

/-- `D8 = cmd_word[7:0]` (R73). -/
def fieldD8 (w : Word) : Block := w.extractLsb' 0 8

/-- `LEN = cmd_word[15:0]` (R73). -/
def fieldLen (w : Word) : BitVec 16 := w.extractLsb' 0 16

/-- A mode from its bit: 0 = ECB, 1 = CBC (R73). -/
def Mode.ofBit (b : Bool) : Mode := if b then .cbc else .ecb

/-- The bit of a mode (R73). -/
def Mode.bit : Mode → Bool
  | .ecb => false
  | .cbc => true

/-- A direction from its bit: 0 = encrypt, 1 = decrypt (R73). -/
def Dir.ofBit (b : Bool) : Dir := if b then .dec else .enc

/-- The bit of a direction (R73). -/
def Dir.bit : Dir → Bool
  | .enc => false
  | .dec => true

/-- `MODE = cmd_word[16]` (R73). -/
def fieldMode (w : Word) : Mode := Mode.ofBit (w.getLsbD 16)

/-- `DIR = cmd_word[17]` (R73). -/
def fieldDir (w : Word) : Dir := Dir.ofBit (w.getLsbD 17)

/-- The command of a row with the operand fields of a word (R73). -/
def withFields (w : Word) : Op → Instr
  | .nop => .nop
  | .ldkey => .ldkey (fieldKey10 w)
  | .encb => .encb (fieldD8 w)
  | .decb => .decb (fieldD8 w)
  | .ldiv => .ldiv (fieldD8 w)
  | .msgbegin => .msgbegin (fieldMode w) (fieldDir w) (fieldLen w)
  | .msgblk => .msgblk (fieldD8 w)
  | .msgabort => .msgabort
  | .rdk1 => .rdk1
  | .rdk2 => .rdk2

/-- The row with this opcode, if any (R74, R75). -/
def rowOf (opc : BitVec 4) : Option OpcodeRow := opcodeMap.find? (fun r => r.opc == opc)

/-- The total decoder (R71): select the row by OPC, then check that every reserved bit is 0. -/
def decode (w : Word) : Decoded :=
  match rowOf (fieldOpc w) with
  | none => .illegal .reservedOpcode
  | some r => if w &&& r.mask = r.pattern then .command (withFields w r.op) else .illegal .reservedBits

/-- The word of a command, from the layouts of R72 with the opcodes of R74, bit 31 first. -/
def encode : Instr → Word
  | .nop => 0x0#4 ++ 0#28
  | .ldkey key => 0x1#4 ++ 0#18 ++ key
  | .encb blk => 0x2#4 ++ 0#20 ++ blk
  | .decb blk => 0x3#4 ++ 0#20 ++ blk
  | .ldiv iv => 0x4#4 ++ 0#20 ++ iv
  | .msgbegin mode dir len => 0x5#4 ++ 0#10 ++ BitVec.ofBool dir.bit ++ BitVec.ofBool mode.bit ++ len
  | .msgblk blk => 0x6#4 ++ 0#20 ++ blk
  | .msgabort => 0x7#4 ++ 0#28
  | .rdk1 => 0x8#4 ++ 0#28
  | .rdk2 => 0x9#4 ++ 0#28

/-- The mnemonic of a command. -/
def Instr.op : Instr → Op
  | .nop => .nop
  | .ldkey _ => .ldkey
  | .encb _ => .encb
  | .decb _ => .decb
  | .ldiv _ => .ldiv
  | .msgbegin _ _ _ => .msgbegin
  | .msgblk _ => .msgblk
  | .msgabort => .msgabort
  | .rdk1 => .rdk1
  | .rdk2 => .rdk2

/-- What the decoder reads from a table word of `nbits` bits, bits above `nbits` being 0. Every command is one 32-bit
word (R78), so a longer row is no command of this core. -/
def decodeTableWord (nbits w : Nat) : Option Instr :=
  if nbits ≤ 32 then
    match decode (BitVec.ofNat 32 (w % 2 ^ nbits)) with
    | .command i => some i
    | .illegal _ => none
  else none

end Sys2Proof
end

