-- ==== Sys2Proof/Config.lean ====
section
/-! DEFINITION. What an implementation fixes: the type of the configuration record TABLES (00_scope.md R9), the open
parameter LATENCY (70_reset_and_hazards.md R260), and the free value of the `rsp_data` port (93 U2). The default values
of TABLES stand in Machine/Tables.lean. -/

namespace Sys2Proof

/-- The configuration record TABLES (00_scope.md R9): the six permutation patterns as lists of 1-based source indices,
output element 0 first (40_bitvector.md R104), and the two boxes as rows of entries (41_sbox.md R122, R123). It is fixed
for a machine and is no state (10_state.md R37). -/
structure Tables where
  p10 : List Nat
  p8 : List Nat
  ip : List Nat
  ipInv : List Nat
  expand : List Nat
  p4 : List Nat
  s0 : List (List Nat)
  s1 : List (List Nat)
  deriving DecidableEq, Repr

/-- The part of LATENCY above its least value 1, by opcode: open, so it has no body (70 R260, 92 D25). -/
opaque Config.extraLatency : BitVec 4 → Nat

/-- `LATENCY(op)`, an integer at least 1 for each opcode (70 R260). No rule of the model depends on it (R261). -/
def Config.latency (opc : BitVec 4) : Nat := Config.extraLatency opc + 1

/-- The value on the `rsp_data` port while `rsp_dvalid` = 0 (93 U2: any value). A free value: no body, one value for
each number that the state's counter gives. -/
opaque Config.floatingData : Nat → Block

end Sys2Proof
end

