-- ==== Sys2Proof/Machine/BitSeq.lean ====
section
/-! DEFINITION. Bit sequences and the BitVector utilities (00_scope.md R10 to R12; 40_bitvector.md R101 to R103). -/

namespace Sys2Proof.Machine

/-- Element `i` of a sequence, element 0 being the most significant bit (R10, R11). -/
def element {w : Nat} (v : BitVec w) (i : Nat) : Bool := v.getMsbD i

/-- The sequence whose element `i` is `f i` (R10, R11). -/
def ofElements : (w : Nat) → (Nat → Bool) → BitVec w
  | 0, _ => 0#0
  | w + 1, f => BitVec.cons (f 0) (ofElements w (fun i => f (i + 1)))

/-- `rotl(v, n)`: `out⟨i⟩ = v⟨(i + n) mod W⟩` (R101). -/
def rotl {w : Nat} (v : BitVec w) (n : Nat) : BitVec w := ofElements w (fun i => element v ((i + n) % w))

/-- `perm(v, P)`: `out⟨i⟩ = v⟨P[i] - 1⟩` (R102), of width `m`, the length of the pattern. -/
def perm {n : Nat} (m : Nat) (v : BitVec n) (p : List Nat) : BitVec m :=
  ofElements m (fun i => element v (p.getD i 0 - 1))

/-- The first `h` elements of a sequence: `left` of R12, `left5` of 42_key_schedule.md R130. -/
def left {w : Nat} (h : Nat) (v : BitVec w) : BitVec h := v.extractLsb' (w - h) h

/-- The last `h` elements of a sequence: `right` of R12, `right5` of R130. -/
def right {w : Nat} (h : Nat) (v : BitVec w) : BitVec h := v.extractLsb' 0 h

/-- `a ⊕ b`, element-wise XOR of equal widths (R103). -/
def xorSeq {w : Nat} (a b : BitVec w) : BitVec w := a ^^^ b

/-- `bin2(n)`, high-order bit first (41_sbox.md R121). -/
def bin2 (n : Nat) : BitVec 2 := BitVec.ofNat 2 n

end Sys2Proof.Machine
end

