-- ==== Sys2Proof/Machine/Cipher.lean ====
section
/-! DEFINITION. The datapath as pure functions of their operands and TABLES (40_bitvector.md R100): the S-boxes (41), the
key schedule (42), the round function (43) and the block transform (44). -/

namespace Sys2Proof.Machine

/-- `sbox(x, S)`: row from the outer bits, column from the inner bits (41_sbox.md R120, R121). -/
def sbox (x : BitVec 4) (s : List (List Nat)) : BitVec 2 :=
  let row := 2 * (element x 0).toNat + (element x 3).toNat
  let col := 2 * (element x 1).toNat + (element x 2).toNat
  bin2 ((s.getD row []).getD col 0)

/-- The 10-bit values HL1 ++ HR1 and HL3 ++ HR3 of the key schedule come from the P10-permuted halves by `n` rotations:
`n` = 1 for K1 and, 2 more, 3 in total for K2 (42_key_schedule.md R130). -/
def rotateHalves (v : BitVec 10) (n : Nat) : BitVec 10 := rotl (left 5 v) n ++ rotl (right 5 v) n

/-- `KeySchedule(k) = (K1, K2)` (42_key_schedule.md R130). -/
def keySchedule (t : Tables) (k : Key) : Block × Block :=
  let h1 := rotateHalves (perm 10 k t.p10) 1
  let h3 := rotateHalves h1 2
  (perm 8 h1 t.p8, perm 8 h3 t.p8)

/-- The round function `F(r, sk)` (43_round_function.md R150, R151). -/
def roundF (t : Tables) (r : Half) (sk : Block) : Half :=
  let x := xorSeq (perm 8 r t.expand) sk
  perm 4 (sbox (left 4 x) t.s0 ++ sbox (right 4 x) t.s1 : BitVec 4) t.p4

/-- One Feistel round `Fk(b, sk)` (44_block_core.md R160). -/
def fk (t : Tables) (b sk : Block) : Block := xorSeq (left 4 b) (roundF t (right 4 b) sk) ++ right 4 b

/-- The half swap `SW(b)` (R161). -/
def sw (b : Block) : Block := right 4 b ++ left 4 b

/-- `EncSub(b, K1, K2)` (R162). -/
def encSub (t : Tables) (b k1 k2 : Block) : Block := perm 8 (fk t (sw (fk t (perm 8 b t.ip) k1)) k2) t.ipInv

/-- `DecSub(b, K1, K2)`: the subkey order reversed (R163). -/
def decSub (t : Tables) (b k1 k2 : Block) : Block := perm 8 (fk t (sw (fk t (perm 8 b t.ip) k2)) k1) t.ipInv

/-- `Encrypt(b, k)` (R164). -/
def encrypt (t : Tables) (b : Block) (k : Key) : Block := encSub t b (keySchedule t k).1 (keySchedule t k).2

/-- `Decrypt(b, k)` (R164). -/
def decrypt (t : Tables) (b : Block) (k : Key) : Block := decSub t b (keySchedule t k).1 (keySchedule t k).2

end Sys2Proof.Machine
end

