-- ==== Sys2Proof/Machine/State.lean ====
section
/-! DEFINITION. The state of the core: the fifteen registers of 10_state.md R20, the response pulse, and the model's own
fields for the host's side; the reasons a step can stop; the reset state (R42). -/

namespace Sys2Proof.Machine

/-- The error codes of 60_exceptions.md R221. -/
inductive ErrCode where
  | ok
  | illegalCmd
  | noKey
  | noIv
  | msgNotAligned
  | noMessage
  | msgBusy
  | invalidLength
  | invalidBitValue
  deriving DecidableEq, Repr

/-- The response of one command (10_state.md R36): error code, data-valid bit, and the data (`none` when no data). -/
structure Response where
  err : BitVec 4
  dvalid : Bool
  data : Option Block
  deriving DecidableEq, Repr

/-- What the host does next (70_reset_and_hazards.md R264): offer a command word, legal or not; assert reset, while the
command given, if any, is in progress (R250, R252); or break its duty to hold an offered word stable (R256). -/
inductive HostEvent where
  | command (w : Word)
  | reset (inProgress : Option Word)
  | unstableOffer (w : Word)
  deriving DecidableEq, Repr

/-- The data registers that a command reads and that may hold `none` (10_state.md R20, R23). -/
inductive DataReg where
  | k1
  | k2
  | iv
  | chain
  deriving DecidableEq, Repr

/-- The state. A register that "may hold `none`" is an `Option`, as R20 and R23 say. The last four fields are no
register of R20: `rspValid` is the port pulse of R39, and `host`, `responses` and `freeCount` are the model's own (log
entries 1, 8, 9 and 10). -/
structure State where
  /-- KEY (R21) -/
  key : Option Key
  /-- K1 (R22) -/
  k1 : Option Block
  /-- K2 (R22) -/
  k2 : Option Block
  /-- KEY_VALID (R24) -/
  keyValid : Bool
  /-- IV (R25) -/
  iv : Option Block
  /-- IV_VALID (R25) -/
  ivValid : Bool
  /-- CHAIN (R26) -/
  chain : Option Block
  /-- MSG_ACTIVE (R27) -/
  msgActive : Bool
  /-- MSG_MODE (R27) -/
  msgMode : Mode
  /-- MSG_DIR (R27) -/
  msgDir : Dir
  /-- BLK_LEFT (R28) -/
  blkLeft : BitVec 13
  /-- LAST_ERR (R29) -/
  lastErr : BitVec 4
  /-- STICKY_ERR (R30) -/
  stickyErr : Bool
  /-- RSP_DVALID (R31) -/
  rspDvalid : Bool
  /-- RSP_DATA (R31) -/
  rspData : Option Block
  /-- the `rsp_valid` pulse (R39): the last step completed a command -/
  rspValid : Bool
  /-- the host's events still to come, oldest first (R34) -/
  host : List HostEvent
  /-- the responses given so far, oldest first (R36, 70 R263) -/
  responses : List Response
  /-- the number of the free value now on the `rsp_data` port (93 U2) -/
  freeCount : Nat
  deriving DecidableEq, Repr

/-- Why the machine stops with a fault. -/
inductive Fault where
  /-- Raised by ENCB, DECB, MSGBLK, RDK1, RDK2 and MSGBEGIN when they read a register that holds `none`; the spec asks
  for it (10_state.md R23, 93 U1), and no run from reset meets it. Safe. -/
  | readOfNone (r : DataReg)
  /-- Raised by every step when TABLES breaks 40_bitvector.md R105 or 41_sbox.md R125 (93 S5: no run starts). Safe. -/
  | invalidTables
  deriving DecidableEq, Repr

/-- Why the machine has no transition. -/
inductive Refusal where
  /-- An instruction without a meaning; raised by no arm of this model. Safe. -/
  | notModelled (mnemonic : String)
  /-- Raised by a step whose host event breaks 70_reset_and_hazards.md R256; the spec leaves the result unspecified and
  asks for no transition (93 U3). Safe. -/
  | hostBrokeHandshake
  deriving DecidableEq, Repr

/-- The outcome of a step of this machine. -/
abbrev Result := Host.Outcome State Fault Refusal

/-- The state after reset (10_state.md R42). -/
def State.reset : State where
  key := none
  k1 := none
  k2 := none
  keyValid := false
  iv := none
  ivValid := false
  chain := none
  msgActive := false
  msgMode := .ecb
  msgDir := .enc
  blkLeft := 0
  lastErr := 0
  stickyErr := false
  rspDvalid := false
  rspData := none
  rspValid := false
  host := []
  responses := []
  freeCount := 0

end Sys2Proof.Machine
end

