-- ==== Sys2Proof/Machine/Ops.lean ====
section
/-! DEFINITION. The named operations on the state: the response of a command (10_state.md R36), `raise Error` as one shared
operation (60_exceptions.md R222), and the register writes of the commands. All are total; none reads a register that may
hold `none`. -/

namespace Sys2Proof.Machine

/-- The 4-bit number of an error code (60_exceptions.md R221). -/
def errBits : ErrCode → BitVec 4
  | .ok => 0
  | .illegalCmd => 1
  | .noKey => 2
  | .noIv => 3
  | .msgNotAligned => 4
  | .noMessage => 5
  | .msgBusy => 6
  | .invalidLength => 7
  | .invalidBitValue => 8

/-- `respond(err, dvalid, data)` (10_state.md R36): LAST_ERR, RSP_DVALID and RSP_DATA are written and the response is
given: it joins the list of responses, `rsp_valid` pulses, and the port's free value is a fresh one (93 U2). -/
def respond (e : ErrCode) (dvalid : Bool) (data : Option Block) (s : State) : State :=
  { s with
    lastErr := errBits e
    rspDvalid := dvalid
    rspData := data
    rspValid := true
    responses := s.responses ++ [{ err := errBits e, dvalid := dvalid, data := data }]
    freeCount := s.freeCount + 1 }

/-- `raise Error(code)` (60_exceptions.md R222): the error response, and STICKY_ERR <- 1. -/
def raiseError (e : ErrCode) (s : State) : State := { respond e false none s with stickyErr := true }

/-- The command ends with an error (R222). The core has no trap, so this is a next state (R227). -/
def raised (e : ErrCode) (s : State) : Result := .next (raiseError e s)

/-- The command ends with `respond(OK, 0, none)`. -/
def done (s : State) : Result := .next (respond .ok false none s)

/-- The command ends with `respond(OK, 1, data)`. -/
def returned (data : Block) (s : State) : Result := .next (respond .ok true (some data) s)

/-- The writes of LDKEY (42_key_schedule.md R135). -/
def loadKey (t : Tables) (k : Key) (s : State) : State :=
  { s with key := some k, k1 := some (keySchedule t k).1, k2 := some (keySchedule t k).2, keyValid := true }

/-- The writes of LDIV (45_modes.md R185). -/
def loadIv (v : Block) (s : State) : State := { s with iv := some v, ivValid := true }

/-- `CHAIN <- c` (45_modes.md R186, R187). -/
def setChain (c : Block) (s : State) : State := { s with chain := some c }

/-- The session writes of MSGBEGIN (45_modes.md R186): mode, direction, `len / 8` blocks, active unless empty. -/
def beginSession (mode : Mode) (dir : Dir) (len : BitVec 16) (s : State) : State :=
  { s with
    msgMode := mode
    msgDir := dir
    blkLeft := BitVec.ofNat 13 (len.toNat / 8)
    msgActive := decide (len ≠ 0) }

/-- The session writes of MSGBLK (45_modes.md R187): one block fewer, and no longer active after the last. -/
def countBlock (s : State) : State :=
  { s with blkLeft := s.blkLeft - 1, msgActive := if s.blkLeft - 1 = 0 then false else s.msgActive }

/-- The writes of MSGABORT (45_modes.md R188). -/
def endSession (s : State) : State := { s with msgActive := false, blkLeft := 0 }

/-- Reset (70_reset_and_hazards.md R250): every register at its reset value and no response (R252). The host's own
events and the responses it has received stay with the host (log entry 3); the port's free value is a fresh one. -/
def toReset (s : State) : State :=
  { State.reset with host := s.host, responses := s.responses, freeCount := s.freeCount + 1 }

/-- No command: the state survives (60_exceptions.md R235) and the `rsp_valid` pulse is over (10_state.md R39). -/
def idle (s : State) : State := { s with rspValid := false }

/-- The host's event is taken from its list. -/
def takeEvent (rest : List HostEvent) (s : State) : State := { s with host := rest }

end Sys2Proof.Machine
end

