-- ==== Sys2Proof/Machine/Operands.lean ====
section
/-! DEFINITION. Reading the registers that may hold `none`: a read of `none` faults and picks no value (10_state.md R23,
92 D12). -/

namespace Sys2Proof.Machine

/-- Read a register that may hold `none` and go on with its value. -/
def readReg (r : DataReg) (x : Option Block) (next : Block → Result) : Result :=
  match x with
  | some v => next v
  | none => .fault (.readOfNone r)

/-- Read K1 and K2, for the commands that apply the block transform. -/
def withSubkeys (s : State) (next : Block → Block → Result) : Result :=
  readReg .k1 s.k1 (fun k1 => readReg .k2 s.k2 (fun k2 => next k1 k2))

end Sys2Proof.Machine
end

