-- ==== Sys2Proof/Machine/Tables.lean ====
section
/-! DEFINITION. The value of the configuration TABLES and the check that a configuration is one (40_bitvector.md R104,
R105; 41_sbox.md R122, R123, R125). The entries are PRESUMED (log entry 6): the spec marks them as general knowledge. -/

namespace Sys2Proof.Machine

/-- The default TABLES: the standard S-DES tables (R104, R122, R123). PRESUMED, unsafe (log entry 6). -/
def standardTables : Tables where
  p10 := [3, 5, 2, 7, 4, 10, 1, 9, 8, 6]
  p8 := [6, 3, 7, 4, 8, 5, 10, 9]
  ip := [2, 6, 3, 1, 4, 8, 5, 7]
  ipInv := [4, 1, 3, 5, 7, 2, 8, 6]
  expand := [4, 1, 2, 3, 2, 3, 4, 1]
  p4 := [2, 4, 3, 1]
  s0 := [[1, 0, 3, 2], [3, 2, 1, 0], [0, 2, 1, 3], [3, 1, 3, 2]]
  s1 := [[0, 1, 2, 3], [2, 0, 1, 3], [3, 0, 1, 0], [2, 1, 0, 3]]

/-- The TABLES of this machine: the default of the parameter that `stepUnder` takes (00_scope.md R9, 93 S8). -/
def tables : Tables := standardTables

/-- A pattern with `outWidth` entries, each in 1..`inWidth` (R105 (a), (b)). -/
def isPattern (inWidth outWidth : Nat) (p : List Nat) : Bool :=
  p.length == outWidth && p.all (fun k => decide (1 ≤ k) && decide (k ≤ inWidth))

/-- A 4×4 box with entries in 0..3 (R125). -/
def isBox (s : List (List Nat)) : Bool :=
  s.length == 4 && s.all (fun row => row.length == 4 && row.all (fun n => decide (n ≤ 3)))

/-- Pattern `q` undoes pattern `p`: entry by entry, output element i of q∘p is input element i (R105 (c)). -/
def undoes (p q : List Nat) : Bool :=
  (List.range p.length).all (fun i => p.getD (q.getD i 0 - 1) 0 == i + 1)

/-- The configuration check of R105 (a) to (d) and R125. -/
def validTables (t : Tables) : Bool :=
  isPattern 10 10 t.p10 && isPattern 10 8 t.p8 && isPattern 8 8 t.ip && isPattern 8 8 t.ipInv &&
  isPattern 4 8 t.expand && isPattern 4 4 t.p4 && undoes t.ip t.ipInv && decide (¬ t.expand.Nodup) &&
  isBox t.s0 && isBox t.s1

end Sys2Proof.Machine
end

