-- ==== Sys2Proof/Machine/BlockCommands.lean ====
section
/-! DEFINITION. The single-block commands ENCB and DECB (44_block_core.md R170, R171). -/

namespace Sys2Proof.Machine

/-- ENCB (R170) under any TABLES: NO_KEY without a key; else EncSub of the operand is returned. No chaining, no session
register. -/
def encbUnder (t : Tables) (b : Block) (s : State) : Result :=
  if s.keyValid then withSubkeys s (fun k1 k2 => returned (encSub t b k1 k2) s) else raised .noKey s

/-- DECB (R171) under any TABLES: NO_KEY without a key; else DecSub of the operand is returned. -/
def decbUnder (t : Tables) (b : Block) (s : State) : Result :=
  if s.keyValid then withSubkeys s (fun k1 k2 => returned (decSub t b k1 k2) s) else raised .noKey s

/-- ENCB (R170) under the TABLES of this machine. -/
def execEncb (b : Block) (s : State) : Result := encbUnder tables b s

/-- DECB (R171) under the TABLES of this machine. -/
def execDecb (b : Block) (s : State) : Result := decbUnder tables b s

end Sys2Proof.Machine
end

