-- ==== Sys2Proof/Machine/ControlCommands.lean ====
section
/-! DEFINITION. NOP and the illegal command word (46_control.md R210, R211). -/

namespace Sys2Proof.Machine

/-- NOP (R210): reports success. -/
def execNop (s : State) : Result := done s

/-- An illegal command word (R211): ILLEGAL_CMD and no other effect. -/
def performIllegal (s : State) : Result := raised .illegalCmd s

end Sys2Proof.Machine
end

