-- ==== Sys2Proof/Machine/KeyCommands.lean ====
section
/-! DEFINITION. The key commands LDKEY, RDK1 and RDK2 (42_key_schedule.md R135 to R137). -/

namespace Sys2Proof.Machine

/-- LDKEY (R135) under any TABLES: refused with MSG_BUSY during a session; else the key and both subkeys are stored. -/
def ldkeyUnder (t : Tables) (k : Key) (s : State) : Result :=
  if s.msgActive then raised .msgBusy s else done (loadKey t k s)

/-- LDKEY (R135) under the TABLES of this machine. -/
def execLdkey (k : Key) (s : State) : Result := ldkeyUnder tables k s

/-- RDK1 (R136): NO_KEY without a key; else K1 is returned. -/
def execRdk1 (s : State) : Result :=
  if s.keyValid then readReg .k1 s.k1 (fun k1 => returned k1 s) else raised .noKey s

/-- RDK2 (R137): NO_KEY without a key; else K2 is returned. -/
def execRdk2 (s : State) : Result :=
  if s.keyValid then readReg .k2 s.k2 (fun k2 => returned k2 s) else raised .noKey s

end Sys2Proof.Machine
end

