-- ==== Sys2Proof/Machine/ModeCommands.lean ====
section
/-! DEFINITION. The mode-controller commands LDIV, MSGBEGIN, MSGBLK and MSGABORT (45_modes.md R185 to R188). -/

namespace Sys2Proof.Machine

/-- LDIV (R185): the IV is stored; CHAIN is not touched. -/
def execLdiv (v : Block) (s : State) : Result := done (loadIv v s)

/-- MSGBEGIN (R186): MSG_BUSY, NO_KEY, NO_IV (CBC only), MSG_NOT_ALIGNED, in this order; else the session starts, in
CBC with CHAIN <- IV. -/
def execMsgbegin (mode : Mode) (dir : Dir) (len : BitVec 16) (s : State) : Result :=
  if s.msgActive = true then raised .msgBusy s
  else if s.keyValid = false then raised .noKey s
  else if mode = .cbc ∧ s.ivValid = false then raised .noIv s
  else if len.toNat % 8 ≠ 0 then raised .msgNotAligned s
  else match mode with
    | .ecb => done (beginSession .ecb dir len s)
    | .cbc => readReg .iv s.iv (fun v => done (setChain v (beginSession .cbc dir len s)))

/-- MSGBLK (R187) under any TABLES: NO_MESSAGE without a session; else the next block in the session's mode and direction. In CBC the
chain takes the ciphertext block: the output when encrypting, the input when decrypting. -/
def msgblkUnder (t : Tables) (b : Block) (s : State) : Result :=
  if s.msgActive then
    withSubkeys s (fun k1 k2 =>
      match s.msgMode, s.msgDir with
      | .ecb, .enc => returned (encSub t b k1 k2) (countBlock s)
      | .ecb, .dec => returned (decSub t b k1 k2) (countBlock s)
      | .cbc, .enc =>
        readReg .chain s.chain (fun c =>
          let out := encSub t (xorSeq b c) k1 k2
          returned out (countBlock (setChain out s)))
      | .cbc, .dec =>
        readReg .chain s.chain (fun c =>
          returned (xorSeq (decSub t b k1 k2) c) (countBlock (setChain b s))))
  else raised .noMessage s

/-- MSGBLK (R187) under the TABLES of this machine. -/
def execMsgblk (b : Block) (s : State) : Result := msgblkUnder tables b s

/-- MSGABORT (R188): the session, if any, ends; CHAIN, MSG_MODE and MSG_DIR stay. -/
def execMsgabort (s : State) : Result := done (endSession s)

end Sys2Proof.Machine
end

