-- ==== Sys2Proof/Machine/Dispatch.lean ====
section
/-! DEFINITION. The dispatch of a decoded command to its meaning (46_control.md R212). -/

namespace Sys2Proof.Machine

def exec (i : Instr) (s : State) : Host.Outcome State Fault Refusal :=
  match i with
  | .nop => Sys2Proof.Machine.execNop s
  | .ldkey key => Sys2Proof.Machine.execLdkey key s
  | .encb blk => Sys2Proof.Machine.execEncb blk s
  | .decb blk => Sys2Proof.Machine.execDecb blk s
  | .ldiv iv => Sys2Proof.Machine.execLdiv iv s
  | .msgbegin mode dir len => Sys2Proof.Machine.execMsgbegin mode dir len s
  | .msgblk blk => Sys2Proof.Machine.execMsgblk blk s
  | .msgabort => Sys2Proof.Machine.execMsgabort s
  | .rdk1 => Sys2Proof.Machine.execRdk1 s
  | .rdk2 => Sys2Proof.Machine.execRdk2 s

end Sys2Proof.Machine
end

