-- ==== Sys2Proof/Machine/Perform.lean ====
section
/-! DEFINITION. One step of the core: performing a command word (46_control.md R212), serving the host's next event, and
placing a command word where the next step takes it. The step is a function of TABLES (R212, 93 S8): `stepUnder` takes
any TABLES, and `step` (Step.lean) is the step under the TABLES of this machine, through `exec`. -/

namespace Sys2Proof.Machine

/-- The meaning of a decoded command under any TABLES (46_control.md R212). Only LDKEY, ENCB, DECB and MSGBLK use it. -/
def execUnder (t : Tables) (i : Instr) (s : State) : Result :=
  match i with
  | .nop => execNop s
  | .ldkey key => ldkeyUnder t key s
  | .encb blk => encbUnder t blk s
  | .decb blk => decbUnder t blk s
  | .ldiv iv => execLdiv iv s
  | .msgbegin mode dir len => execMsgbegin mode dir len s
  | .msgblk blk => msgblkUnder t blk s
  | .msgabort => execMsgabort s
  | .rdk1 => execRdk1 s
  | .rdk2 => execRdk2 s

/-- The dispatch of R212 on a command word: the decoded command by its meaning `run`, or an illegal word. -/
def performBy (run : Instr → State → Result) (w : Word) (s : State) : Result :=
  match decode w with
  | .command i => run i s
  | .illegal _ => performIllegal s

/-- The complete step of the core on a command word under any TABLES (R212). -/
def performWordUnder (t : Tables) (w : Word) (s : State) : Result := performBy (execUnder t) w s

/-- The complete step of the core on a command word under the TABLES of this machine (R212). -/
def performWord (w : Word) (s : State) : Result := performBy exec w s

/-- What the core does with one event of the host. A reset abandons the command in progress, if any: no effect and no
response (70_reset_and_hazards.md R252). A broken handshake has no transition (93 U3). -/
def serve (run : Instr → State → Result) (e : HostEvent) (s : State) : Result :=
  match e with
  | .command w => performBy run w s
  | .reset _ => .next (toReset s)
  | .unstableOffer _ => .refused .hostBrokeHandshake

/-- One step under TABLES `t` with the meanings `run`: under a valid TABLES (93 S5), the host's next event is taken and
served; with none the core is idle. -/
def advance (t : Tables) (run : Instr → State → Result) (s : State) : Result :=
  if validTables t then
    match s.host with
    | [] => .next (idle s)
    | e :: rest => serve run e (takeEvent rest s)
  else .fault .invalidTables

/-- One step of the core under any TABLES (R212, 93 S8: TABLES is a parameter). -/
def stepUnder (t : Tables) (s : State) : Result := advance t (execUnder t) s

/-- Offer a command word of `nbits` bits, the bits above being 0, as the host's next event. -/
def offerWord (s : State) (nbits w : Nat) : State :=
  { s with host := .command (BitVec.ofNat 32 (w % 2 ^ nbits)) :: s.host }

end Sys2Proof.Machine
end

