-- ==== Sys2Proof/Machine/Step.lean ====
section
/-! DEFINITION. The step function and the placing of a word where the step takes its next command. -/

namespace Sys2Proof.Machine

/-- One step of the machine: the step under its TABLES. -/
def step (s : State) : Host.Outcome State Fault Refusal := advance tables exec s

/-- `s` with this command word as the host's next event, so that the very next step performs it (log entry 1). -/
def State.withFetchWord (s : State) (nbits w : Nat) : State := offerWord s nbits w

end Sys2Proof.Machine
end

