-- ==== Sys2Proof/Machine/Assembler.lean ====
section
/-! DEFINITION. The assembler (30_encoding.md R79): from the text of a line to its command word. Blanks around a token are
skipped and letters are matched as R79 writes them (log entry 13). -/

namespace Sys2Proof.Machine

/-- The hardware value of a literal: a bit string is in element order, element 0 first (R79, 00_scope.md R11). -/
def literalValue (width : Nat) : Literal → BitVec width
  | .bits elements => ofElements width (fun i => elements.getD i false)
  | .hex value => BitVec.ofNat width value

/-- The word of a line whose operands meet R79; each mnemonic is exactly one word. -/
def assemble (line : AsmLine) : Option Word :=
  if line.wf then
    some (match line with
      | .nop => encode .nop
      | .ldkey key => encode (.ldkey (literalValue 10 key))
      | .encb blk => encode (.encb (literalValue 8 blk))
      | .decb blk => encode (.decb (literalValue 8 blk))
      | .ldiv blk => encode (.ldiv (literalValue 8 blk))
      | .msgbegin mode dir len => encode (.msgbegin mode dir (BitVec.ofNat 16 len))
      | .msgblk blk => encode (.msgblk (literalValue 8 blk))
      | .msgabort => encode .msgabort
      | .rdk1 => encode .rdk1
      | .rdk2 => encode .rdk2
      | .word value => BitVec.ofNat 32 value)
  else none

/-- The characters before a comment. -/
def dropComment : List Char → List Char
  | [] => []
  | c :: cs => if c = ';' then [] else c :: dropComment cs

/-- A blank character. -/
def isBlank (c : Char) : Bool := c == ' ' || c == '\t'

/-- The text without the blanks at its two ends. -/
def trim (cs : List Char) : List Char := ((cs.dropWhile isBlank).reverse.dropWhile isBlank).reverse

/-- The operands between commas, trimmed. -/
def splitOperands : List Char → List Char → List (List Char)
  | acc, [] => [trim acc.reverse]
  | acc, c :: cs => if c = ',' then trim acc.reverse :: splitOperands [] cs else splitOperands (c :: acc) cs

/-- The value of a digit in a base up to 16. -/
def digitValue (base : Nat) (c : Char) : Option Nat :=
  let v := if '0' ≤ c ∧ c ≤ '9' then c.toNat - 48
    else if 'a' ≤ c ∧ c ≤ 'f' then c.toNat - 87
    else if 'A' ≤ c ∧ c ≤ 'F' then c.toNat - 55
    else base
  if v < base then some v else none

/-- The number that a nonempty list of digits writes in a base. How many digits there are, and leading zeros among them,
do not matter: R79 leaves that open for hexadecimal and decimal numbers. DESIGN CHOICE (log entry 13). -/
def numberOf (base : Nat) (cs : List Char) : Option Nat :=
  if cs.isEmpty then none
  else cs.foldl (fun acc c => acc.bind (fun n => (digitValue base c).map (fun d => base * n + d))) (some 0)

/-- A literal: `0b` and bits in element order, or `0x` and a hexadecimal value (R79), of any number of digits above none,
leading zeros included. DESIGN CHOICE (log entry 13). -/
def parseLiteral : List Char → Option Literal
  | '0' :: 'b' :: ds => if ds.all (fun c => c == '0' || c == '1') then some (.bits (ds.map (· == '1'))) else none
  | '0' :: 'x' :: ds => (numberOf 16 ds).map .hex
  | _ => none

/-- The raw word after `.word`, in hexadecimal with its `0x` (R79). R79 does not say how many digits `<hex32>` has: any
number above none is taken, leading zeros included. DESIGN CHOICE (log entry 13). -/
def parseHex32 : List Char → Option Nat
  | '0' :: 'x' :: ds => numberOf 16 ds
  | _ => none

/-- `ecb` or `cbc` (R79). -/
def parseMode (cs : List Char) : Option Mode :=
  if cs = ['e', 'c', 'b'] then some .ecb else if cs = ['c', 'b', 'c'] then some .cbc else none

/-- `enc` or `dec` (R79). -/
def parseDir (cs : List Char) : Option Dir :=
  if cs = ['e', 'n', 'c'] then some .enc else if cs = ['d', 'e', 'c'] then some .dec else none

/-- A mnemonic without operands (R79, format N). -/
def parseFormatN (m : List Char) : Option AsmLine :=
  if m = ['N', 'O', 'P'] then some .nop
  else if m = ['M', 'S', 'G', 'A', 'B', 'O', 'R', 'T'] then some .msgabort
  else if m = ['R', 'D', 'K', '1'] then some .rdk1
  else if m = ['R', 'D', 'K', '2'] then some .rdk2
  else none

/-- A mnemonic with one operand (R79, formats K and B, and `.word`). -/
def parseOneOperand (m op : List Char) : Option AsmLine :=
  if m = ['L', 'D', 'K', 'E', 'Y'] then (parseLiteral op).map .ldkey
  else if m = ['E', 'N', 'C', 'B'] then (parseLiteral op).map .encb
  else if m = ['D', 'E', 'C', 'B'] then (parseLiteral op).map .decb
  else if m = ['L', 'D', 'I', 'V'] then (parseLiteral op).map .ldiv
  else if m = ['M', 'S', 'G', 'B', 'L', 'K'] then (parseLiteral op).map .msgblk
  else if m = ['.', 'w', 'o', 'r', 'd'] then (parseHex32 op).map .word
  else none

/-- A mnemonic with three operands (R79, format M). -/
def parseFormatM (m mode dir len : List Char) : Option AsmLine :=
  if m = ['M', 'S', 'G', 'B', 'E', 'G', 'I', 'N'] then
    (parseMode mode).bind (fun md => (parseDir dir).bind (fun dr => (numberOf 10 len).map (fun n => .msgbegin md dr n)))
  else none

/-- A mnemonic and its operands. -/
def parseParts (m : List Char) : List (List Char) → Option AsmLine
  | [] => parseFormatN m
  | [a] => if a.isEmpty then parseFormatN m else parseOneOperand m a
  | [a, b, c] => parseFormatM m a b c
  | _ => none

/-- A line that holds a command: the mnemonic up to the first blank, then its operands. -/
def parseLine (text : List Char) : Option AsmLine :=
  let code := trim (dropComment text)
  parseParts (code.takeWhile (fun c => !isBlank c)) (splitOperands [] (code.dropWhile (fun c => !isBlank c)))

/-- The words of the lines of a listing, one command per line; a line with nothing but blanks or
a comment gives no word (log entry 13). -/
def assembleLines : List (List Char) → Option (List Word)
  | [] => some []
  | l :: ls =>
    if (trim (dropComment l)).isEmpty then assembleLines ls
    else ((parseLine l).bind assemble).bind (fun w => (assembleLines ls).map (w :: ·))

end Sys2Proof.Machine
end

