-- ==== Sys2Proof/Machine/Flags.lean ====
section
/-! DEFINITION. The read-only views of the state: STATUS and the ports (10_state.md R32, R33, R36, R39). -/

namespace Sys2Proof.Machine

/-- The 16-bit STATUS register (R32): LAST_ERR in [11:8], the flags in [5:0], reserved bits 0. -/
def status (s : State) : BitVec 16 :=
  0#4 ++ s.lastErr ++ 0#2 ++ BitVec.ofBool s.stickyErr ++ BitVec.ofBool s.msgDir.bit ++ BitVec.ofBool s.msgMode.bit ++
    BitVec.ofBool s.msgActive ++ BitVec.ofBool s.ivValid ++ BitVec.ofBool s.keyValid

/-- The `rsp_data` port (R39): RSP_DATA while RSP_DVALID = 1, and any value otherwise (93 U2): a free value, the same
until the next response or reset (70 R257). DESIGN CHOICE (log entry 8): the free value depends on the state's counter
alone, and in a state with RSP_DVALID = 1 and RSP_DATA = `none`, which R38 (e) rules out and for which the spec gives no
port value, the port shows the free value too. -/
def rspDataPort (s : State) : Block :=
  if s.rspDvalid then s.rspData.getD (Config.floatingData s.freeCount) else Config.floatingData s.freeCount

/-- The output ports of R39. -/
structure Ports where
  cmdReady : Bool
  rspValid : Bool
  rspErr : BitVec 4
  rspDvalid : Bool
  rspData : Block
  status : BitVec 16
  blkLeft : BitVec 13
  deriving DecidableEq, Repr

/-- What the host reads at its ports between two steps (R39, R41). No command is in progress there, so `cmd_ready` is 1
(60_exceptions.md R235, log entry 10). -/
def ports (s : State) : Ports where
  cmdReady := true
  rspValid := s.rspValid
  rspErr := s.lastErr
  rspDvalid := s.rspDvalid
  rspData := rspDataPort s
  status := status s
  blkLeft := s.blkLeft

end Sys2Proof.Machine
end

