-- ==== Sys2Proof/Machine/Message.lean ====
section
/-! DEFINITION. The reference functions over a whole message (45_modes.md R180 to R184). -/

namespace Sys2Proof.Machine

/-- The block whose elements are these eight bits, element 0 first (R180). -/
def blockOf (b0 b1 b2 b3 b4 b5 b6 b7 : Bool) : Block :=
  ofElements 8 (fun i => [b0, b1, b2, b3, b4, b5, b6, b7].getD i false)

/-- The consecutive blocks of a message, block 0 first (R180). A length that is no multiple of 8 has none (R184). -/
def blocksOf : List Bool → Option (List Block)
  | [] => some []
  | b0 :: b1 :: b2 :: b3 :: b4 :: b5 :: b6 :: b7 :: rest =>
    (blocksOf rest).map (fun bs => blockOf b0 b1 b2 b3 b4 b5 b6 b7 :: bs)
  | _ => none

/-- The elements of the blocks, concatenated in order (R180). -/
def bitsOf (bs : List Block) : List Bool := bs.flatMap (fun b => (List.range 8).map (element b))

/-- ECB on the blocks of a message: each block on its own (R181). -/
def ecbBlocks (t : Tables) (k : Key) : Dir → List Block → List Block
  | .enc, bs => bs.map (fun b => encrypt t b k)
  | .dec, bs => bs.map (fun b => decrypt t b k)

/-- CBC encryption of the blocks of a message, each XORed with the previous ciphertext block, the first with the IV (R182). -/
def cbcEncryptBlocks (t : Tables) (k : Key) : Block → List Block → List Block
  | _, [] => []
  | prev, p :: ps =>
    let c := encrypt t (xorSeq p prev) k
    c :: cbcEncryptBlocks t k c ps

/-- CBC decryption of the blocks of a message (R183). -/
def cbcDecryptBlocks (t : Tables) (k : Key) : Block → List Block → List Block
  | _, [] => []
  | prev, c :: cs => xorSeq (decrypt t c k) prev :: cbcDecryptBlocks t k c cs

/-- The mode function of a session on blocks: ECB or CBC, in either direction. -/
def modeBlocks (t : Tables) (k : Key) (iv : Block) : Mode → Dir → List Block → List Block
  | .ecb, dir, bs => ecbBlocks t k dir bs
  | .cbc, .enc, bs => cbcEncryptBlocks t k iv bs
  | .cbc, .dec, bs => cbcDecryptBlocks t k iv bs

/-- The mode function on a message of bits: refused as MessageNotBlockAligned unless its length is a multiple of 8 (R184). -/
def modeMessage (t : Tables) (k : Key) (iv : Block) (mode : Mode) (dir : Dir) (m : List Bool) : Except ErrCode (List Bool) :=
  match blocksOf m with
  | some bs => .ok (bitsOf (modeBlocks t k iv mode dir bs))
  | none => .error .msgNotAligned

end Sys2Proof.Machine
end

