-- ==== Sys2Proof/Machine/Session.lean ====
section
/-! DEFINITION. Sequences of commands: performing words one after another (70_reset_and_hazards.md R263), sending a message
(45_modes.md R196), and the source's functions as command sequences (30_encoding.md R80). -/

namespace Sys2Proof.Machine

/-- Perform command words in order, under any TABLES (20_memory.md R60). -/
def performAll (tb : Tables) : List Word → State → Result
  | [], s => .next s
  | w :: ws, s =>
    match performWordUnder tb w s with
    | .next t => performAll tb ws t
    | .fault r => .fault r
    | .refused r => .refused r

/-- Send the blocks of a message, each after some other words, and collect the response data of the MSGBLKs in order;
none where a step stops or a MSGBLK does not succeed (R196). -/
def sendBlocks (tb : Tables) : List (List Word × Block) → State → Option (List Block × State)
  | [], s => some ([], s)
  | (ws, b) :: rest, s =>
    match performAll tb ws s with
    | .next u =>
      match performWordUnder tb (encode (.msgblk b)) u with
      | .next t =>
        match t.rspData with
        | some d => if t.lastErr = 0 then (sendBlocks tb rest t).map (fun r => (d :: r.1, r.2)) else none
        | none => none
      | _ => none
    | _ => none

/-- A word that may come between the blocks of a session in R196: any but MSGBLK and MSGABORT. -/
def mayInterleave (w : Word) : Bool :=
  match decode w with
  | .command i => decide (i.op ≠ .msgblk) && decide (i.op ≠ .msgabort)
  | .illegal _ => true

/-- `keySchedule(masterKey)` as commands (30_encoding.md R80). -/
def keyScheduleCommands (k : Key) : List Instr := [.ldkey k, .rdk1, .rdk2]

/-- `encryptBlock(block, masterKey)` as commands (R80). -/
def encryptBlockCommands (b : Block) (k : Key) : List Instr := [.ldkey k, .encb b]

/-- `decryptBlock(block, masterKey)` as commands (R80). -/
def decryptBlockCommands (b : Block) (k : Key) : List Instr := [.ldkey k, .decb b]

/-- An ECB session over the blocks of a message: MSGBEGIN, then one MSGBLK per block (45_modes.md R196). -/
def ecbSession (dir : Dir) (m : List Block) : List Instr :=
  .msgbegin .ecb dir (BitVec.ofNat 16 (8 * m.length)) :: m.map .msgblk

/-- A CBC session over the blocks of a message: LDIV, MSGBEGIN, then one MSGBLK per block (R196). -/
def cbcSession (dir : Dir) (m : List Block) (iv : Block) : List Instr :=
  .ldiv iv :: .msgbegin .cbc dir (BitVec.ofNat 16 (8 * m.length)) :: m.map .msgblk

/-- The IV the host loads for the next session of a longer CBC message: the last ciphertext block of this one, which is
the last block the core gave when encrypting and the last block sent when decrypting (45_modes.md R199). -/
def nextIv (dir : Dir) (sent given : List Block) (iv : Block) : Block :=
  match dir with
  | .enc => given.getLastD iv
  | .dec => sent.getLastD iv

/-- `encryptECB` and `decryptECB` as commands (R80). -/
def ecbCommands (dir : Dir) (m : List Block) (k : Key) : List Instr := .ldkey k :: ecbSession dir m

/-- `encryptCBC` and `decryptCBC` as commands (R80). -/
def cbcCommands (dir : Dir) (m : List Block) (k : Key) (iv : Block) : List Instr := .ldkey k :: cbcSession dir m iv

/-- The data that the responses of a state carry, in order (10_state.md R36). -/
def dataOf (rs : List Response) : List Block := rs.filterMap (fun r => r.data)

end Sys2Proof.Machine
end

