-- ==== Sys2Proof/Safety.lean ====
section
/-! DEFINITION. The terms claims are stated in: the invariants of 10_state.md R38, which registers two states share, what a
successful or failing command answers, and the first error of a command (60_exceptions.md R223). -/

namespace Sys2Proof.Machine

/-- R38 (a): KEY_VALID = 1 exactly when KEY holds a value, and K1 and K2 are then the key schedule of KEY. -/
abbrev keyInv (tb : Tables) (s : State) : Prop :=
  s.keyValid = s.key.isSome ∧ s.k1 = s.key.map (fun k => (keySchedule tb k).1) ∧
    s.k2 = s.key.map (fun k => (keySchedule tb k).2)

/-- R38 (c): an active session has a key, blocks left, and in CBC a chain value. -/
abbrev activeInv (s : State) : Prop :=
  s.msgActive = true →
    s.keyValid = true ∧ 1 ≤ s.blkLeft.toNat ∧ s.blkLeft.toNat ≤ 8191 ∧ (s.msgMode = .cbc → s.chain.isSome = true)

/-- The invariants R38 (a) to (f) of a state, for a core with these TABLES. -/
abbrev State.InvUnder (tb : Tables) (s : State) : Prop :=
  keyInv tb s ∧ s.ivValid = s.iv.isSome ∧ activeInv s ∧ (s.msgActive = false → s.blkLeft = 0) ∧
    s.rspDvalid = s.rspData.isSome ∧ (s.lastErr ≠ 0 → s.stickyErr = true)

/-- The invariants R38 (a) to (f) of a state of this machine. -/
abbrev State.Inv (s : State) : Prop := s.InvUnder tables

/-- KEY, K1, K2 and KEY_VALID are the same. -/
abbrev sameKey (s t : State) : Prop := t.key = s.key ∧ t.k1 = s.k1 ∧ t.k2 = s.k2 ∧ t.keyValid = s.keyValid

/-- IV and IV_VALID are the same. -/
abbrev sameIv (s t : State) : Prop := t.iv = s.iv ∧ t.ivValid = s.ivValid

/-- The session registers of 45_modes.md R190 are the same. -/
abbrev sameSession (s t : State) : Prop :=
  t.msgActive = s.msgActive ∧ t.msgMode = s.msgMode ∧ t.msgDir = s.msgDir ∧ t.blkLeft = s.blkLeft ∧ t.chain = s.chain

/-- LAST_ERR, STICKY_ERR, RSP_DVALID and RSP_DATA are the same. -/
abbrev sameAnswer (s t : State) : Prop :=
  t.lastErr = s.lastErr ∧ t.stickyErr = s.stickyErr ∧ t.rspDvalid = s.rspDvalid ∧ t.rspData = s.rspData

/-- All fifteen registers of R20 are the same. -/
abbrev sameRegisters (s t : State) : Prop := sameKey s t ∧ sameIv s t ∧ sameSession s t ∧ sameAnswer s t

/-- The registers of R20 have the reset values of R42. -/
abbrev atReset (t : State) : Prop :=
  t.key = none ∧ t.k1 = none ∧ t.k2 = none ∧ t.keyValid = false ∧ t.iv = none ∧ t.ivValid = false ∧ t.chain = none ∧
    t.msgActive = false ∧ t.msgMode = .ecb ∧ t.msgDir = .enc ∧ t.blkLeft = 0 ∧ t.lastErr = 0 ∧ t.stickyErr = false ∧
    t.rspDvalid = false ∧ t.rspData = none

/-- From `s` to `t` one response `(err, dvalid, data)` was given (10_state.md R36): it stands in LAST_ERR, RSP_DVALID and
RSP_DATA and at the end of the list of responses, with the `rsp_valid` pulse; the host's events are untouched. -/
abbrev gives (err : BitVec 4) (dvalid : Bool) (data : Option Block) (s t : State) : Prop :=
  t.lastErr = err ∧ t.rspDvalid = dvalid ∧ t.rspData = data ∧ t.rspValid = true ∧
    t.responses = s.responses ++ [{ err := err, dvalid := dvalid, data := data }] ∧ t.host = s.host

/-- The command succeeded: `respond(OK, dvalid, data)`, STICKY_ERR unchanged (60_exceptions.md R222). -/
abbrev succeedsWith (data : Option Block) (s t : State) : Prop :=
  gives 0 data.isSome data s t ∧ t.stickyErr = s.stickyErr

/-- The command failed with this code and changed nothing but LAST_ERR, STICKY_ERR, RSP_DVALID and RSP_DATA (R222). -/
abbrev failsWith (code : BitVec 4) (s t : State) : Prop :=
  gives code false none s t ∧ t.stickyErr = true ∧ sameKey s t ∧ sameIv s t ∧ sameSession s t

/-- The words of a command are those that match this pattern under this mask (30_encoding.md R74). -/
def encodedAs (op : Op) (pattern mask : Word) : Prop :=
  ∀ w : Word, (∃ i, decode w = .command i ∧ i.op = op) ↔ w &&& mask = pattern

/-- The first error of a command in the order of R223, OK if none. -/
def firstError (i : Instr) (s : State) : ErrCode :=
  match i with
  | .nop => .ok
  | .ldiv _ => .ok
  | .msgabort => .ok
  | .ldkey _ => if s.msgActive then .msgBusy else .ok
  | .encb _ => if s.keyValid then .ok else .noKey
  | .decb _ => if s.keyValid then .ok else .noKey
  | .rdk1 => if s.keyValid then .ok else .noKey
  | .rdk2 => if s.keyValid then .ok else .noKey
  | .msgbegin mode _ len =>
    if s.msgActive then .msgBusy
    else if !s.keyValid then .noKey
    else if mode.bit && !s.ivValid then .noIv
    else if len.toNat % 8 ≠ 0 then .msgNotAligned
    else .ok
  | .msgblk _ => if s.msgActive then .ok else .noMessage

end Sys2Proof.Machine
end

