-- ==== Sys2Proof/Certificates/Slice0/Obligations.lean ====
section
/-! DEFINITION. The statements for the provers, from the numbered rules of spec/. Error codes are written as numbers
(60_exceptions.md R221: 0 OK, 1 ILLEGAL_CMD, 2 NO_KEY, 3 NO_IV, 4 MSG_NOT_ALIGNED, 5 NO_MESSAGE, 6 MSG_BUSY). Clauses about
the fields `host` and `responses` are about the model's own fields (log entries 1 and 9), through which it reads the host's
commands and records the responses; `rspValid` is the port pulse (log entry 10). -/

open Sys2Proof Sys2Proof.Machine

/-! ### Encoding (30_encoding.md) -/

/-- Decoding the word of a command gives the command back, every operand at every value (R72, R73, R74). -/
def Obligations.DecodeOfEncodeIsTheCommand : Prop := ∀ i : Instr, decode (encode i) = .command i

/-- A word that is a command is the word the encoder writes for it: no two words are the same command (R72 to R76). -/
def Obligations.LegalWordIsTheEncodingOfItsCommand : Prop :=
  ∀ (w : Word) (i : Instr), decode w = .command i → encode i = w

/-- R74: a word is command X exactly when `(w & mask_X) = match_X`, row by row, and no word matches two rows. -/
def Obligations.WordIsCommandExactlyWhenItMatchesItsRow : Prop :=
  encodedAs .nop 0x00000000 0xFFFFFFFF ∧ encodedAs .ldkey 0x10000000 0xFFFFFC00 ∧
  encodedAs .encb 0x20000000 0xFFFFFF00 ∧ encodedAs .decb 0x30000000 0xFFFFFF00 ∧
  encodedAs .ldiv 0x40000000 0xFFFFFF00 ∧ encodedAs .msgbegin 0x50000000 0xFFFC0000 ∧
  encodedAs .msgblk 0x60000000 0xFFFFFF00 ∧ encodedAs .msgabort 0x70000000 0xFFFFFFFF ∧
  encodedAs .rdk1 0x80000000 0xFFFFFFFF ∧ encodedAs .rdk2 0x90000000 0xFFFFFFFF ∧
  opcodeMap.map (fun r => (r.opc.toNat, r.op, r.format)) =
    [(0, .nop, .n), (1, .ldkey, .k), (2, .encb, .b), (3, .decb, .b), (4, .ldiv, .b), (5, .msgbegin, .m), (6, .msgblk, .b),
      (7, .msgabort, .n), (8, .rdk1, .n), (9, .rdk2, .n)] ∧
  (∀ w : Word, 10 ≤ (w >>> 28).toNat → ∀ i, decode w ≠ .command i) ∧
  ∀ (w : Word) (r q : OpcodeRow), r ∈ opcodeMap → q ∈ opcodeMap →
    w &&& r.mask = r.pattern → w &&& q.mask = q.pattern → r = q

/-- R73: every operand field is taken as it stands, element 0 from the field's most significant bit. -/
def Obligations.OperandFieldsAreTakenAsTheyStand : Prop :=
  (∀ (w : Word) (k : Key), decode w = .command (.ldkey k) →
    k = w.extractLsb' 0 10 ∧ ∀ i < 10, element k i = w.getLsbD (9 - i)) ∧
  (∀ (w : Word) (b : Block),
    decode w = .command (.encb b) ∨ decode w = .command (.decb b) ∨ decode w = .command (.ldiv b) ∨
      decode w = .command (.msgblk b) →
    b = w.extractLsb' 0 8 ∧ ∀ i < 8, element b i = w.getLsbD (7 - i)) ∧
  (∀ (w : Word) (m : Mode) (d : Dir) (n : BitVec 16), decode w = .command (.msgbegin m d n) →
    (d = if w.getLsbD 17 then .dec else .enc) ∧ (m = if w.getLsbD 16 then .cbc else .ecb) ∧
      n = w.extractLsb' 0 16) ∧
  decode 0x10000282 = .command (.ldkey 0b1010000010)

/-- R75, R76, R211: a word is illegal exactly for a reserved opcode or a set reserved bit of its opcode's format
(equivalently, its OPC's row is not matched); it answers ILLEGAL_CMD from every state and changes nothing else. -/
def Obligations.IllegalWordAnswersIllegalCmdOnly : Prop :=
  (∀ w : Word, (∀ i, decode w ≠ .command i) ↔
    (10 ≤ (w >>> 28).toNat ∨ ∃ r ∈ opcodeMap, r.opc.toNat = (w >>> 28).toNat ∧ w &&& r.format.reserved ≠ 0)) ∧
  (∀ (w : Word) (r : OpcodeRow), r ∈ opcodeMap → r.opc.toNat = (w >>> 28).toNat →
    (w &&& r.format.reserved ≠ 0 ↔ w &&& r.mask ≠ r.pattern)) ∧
  (∀ (w : Word) (s : State), (∀ i, decode w ≠ .command i) →
    ∃ t, performWord w s = .next t ∧ failsWith 1 s t) ∧
  (∀ i, decode 0xA0000000 ≠ .command i) ∧ (∀ i, decode 0x200001D7 ≠ .command i)

/-- The words written out in 95_test_vectors.md V-E decode to the commands they stand for. -/
def Obligations.WorkedEncodingsDecode : Prop :=
  decode 0x00000000 = .command .nop ∧
  decode 0x10000282 = .command (.ldkey 0b1010000010) ∧
  decode 0x200000D7 = .command (.encb 0b11010111) ∧
  decode 0x300000A8 = .command (.decb 0b10101000) ∧
  decode 0x40000055 = .command (.ldiv 0b01010101) ∧
  decode 0x50010018 = .command (.msgbegin .cbc .enc 24) ∧
  decode 0x50020018 = .command (.msgbegin .ecb .dec 24) ∧
  decode 0x600000D7 = .command (.msgblk 0b11010111) ∧
  decode 0x70000000 = .command .msgabort ∧
  decode 0x80000000 = .command .rdk1 ∧
  decode 0x90000000 = .command .rdk2

/-- R79: each mnemonic with operands in range assembles to exactly one word, and that word decodes to that mnemonic's
command with those operands; a bit string is in element order and a hexadecimal literal gives the hardware value (R11);
`.word` gives its raw word; a listing with the worked encodings of R80 gives their words. A bit string with another number
of digits is refused, and so are a hexadecimal literal that does not fit its field, a length above 65535 and a raw word
that does not fit 32 bits: the refusal of literals that do not fit, and how blanks and a comment alone on a line are read,
are the model's choices (log entry 13). -/
def Obligations.AssembledMnemonicIsOneLegalWord : Prop :=
  (∃ w, assemble .nop = some w ∧ decode w = .command .nop) ∧
  (∃ w, assemble .msgabort = some w ∧ decode w = .command .msgabort) ∧
  (∃ w, assemble .rdk1 = some w ∧ decode w = .command .rdk1) ∧
  (∃ w, assemble .rdk2 = some w ∧ decode w = .command .rdk2) ∧
  (∀ l : Literal, l.fits 10 = true →
    ∃ w, assemble (.ldkey l) = some w ∧ decode w = .command (.ldkey (literalValue 10 l))) ∧
  (∀ l : Literal, l.fits 8 = true →
    (∃ w, assemble (.encb l) = some w ∧ decode w = .command (.encb (literalValue 8 l))) ∧
    (∃ w, assemble (.decb l) = some w ∧ decode w = .command (.decb (literalValue 8 l))) ∧
    (∃ w, assemble (.ldiv l) = some w ∧ decode w = .command (.ldiv (literalValue 8 l))) ∧
    (∃ w, assemble (.msgblk l) = some w ∧ decode w = .command (.msgblk (literalValue 8 l)))) ∧
  (∀ (m : Mode) (d : Dir) (n : Nat), n ≤ 65535 →
    ∃ w len, assemble (.msgbegin m d n) = some w ∧ decode w = .command (.msgbegin m d len) ∧ len.toNat = n) ∧
  (∀ v : Nat, v < 2 ^ 32 → ∃ w, assemble (.word v) = some w ∧ w.toNat = v) ∧
  (∀ (n : Nat) (ds : List Bool), (Literal.bits ds).fits n = true ↔ ds.length = n) ∧
  (∀ (ds : List Bool) (i : Nat) (h : i < ds.length), element (literalValue ds.length (.bits ds)) i = ds[i]) ∧
  (∀ n v : Nat, v < 2 ^ n → (Literal.hex v).fits n = true ∧ (literalValue n (.hex v)).toNat = v) ∧
  (∀ l : Literal, l.fits 10 = false → assemble (.ldkey l) = none) ∧
  (∀ l : Literal, l.fits 8 = false →
    assemble (.encb l) = none ∧ assemble (.decb l) = none ∧ assemble (.ldiv l) = none ∧ assemble (.msgblk l) = none) ∧
  (∀ n v : Nat, 2 ^ n ≤ v → (Literal.hex v).fits n = false) ∧
  (∀ (m : Mode) (d : Dir) (n : Nat), 65535 < n → assemble (.msgbegin m d n) = none) ∧
  (∀ v : Nat, 2 ^ 32 ≤ v → assemble (.word v) = none) ∧
  assembleLines (["LDKEY 0b1010000010", "LDKEY 0x282 ; the same key", "ENCB 0b11010111", "MSGBEGIN ecb, enc, 24",
      "MSGBEGIN cbc, enc, 24", "MSGBEGIN cbc, dec, 24", "LDIV 0b01010101", "RDK1", ".word 0xA0000000"].map String.toList) =
    some [0x10000282, 0x10000282, 0x200000D7, 0x50000018, 0x50010018, 0x50030018, 0x40000055, 0x80000000, 0xA0000000]

/-! ### The step (46_control.md R212, 70_reset_and_hazards.md) -/

/-- R212: when the host's next event is a command word, the step takes the event and performs the word: the decoded
command's meaning, or the illegal-word error. So it is under every valid TABLES, the step being a function of TABLES of
which `step`, `exec` and `performWord` are the case of this machine's TABLES; only LDKEY, ENCB, DECB and MSGBLK use TABLES;
under an invalid one no step is made (93 S5). The model's event list is log entry 1, the check at every step log entry 7. -/
def Obligations.StepPerformsTheOfferedWord : Prop :=
  (∀ (s : State) (w : Word) (rest : List HostEvent) (i : Instr), s.host = .command w :: rest →
    decode w = .command i → step s = exec i { s with host := rest }) ∧
  (∀ (s : State) (w : Word) (rest : List HostEvent) (y : Illegal), s.host = .command w :: rest →
    decode w = .illegal y → ∃ t, step s = .next t ∧ failsWith 1 { s with host := rest } t) ∧
  (∀ (s : State) (w : Nat) (i : Instr), decodeTableWord 32 w = some i →
    step (s.withFetchWord 32 w) = exec i s) ∧
  (∀ (tb : Tables) (s : State) (w : Word) (rest : List HostEvent) (i : Instr), validTables tb = true →
    s.host = .command w :: rest → decode w = .command i → stepUnder tb s = execUnder tb i { s with host := rest }) ∧
  (∀ (tb : Tables) (s : State) (w : Word) (rest : List HostEvent) (y : Illegal), validTables tb = true →
    s.host = .command w :: rest → decode w = .illegal y →
    ∃ t, stepUnder tb s = .next t ∧ failsWith 1 { s with host := rest } t) ∧
  (∀ (tb : Tables) (w : Word) (i : Instr) (s : State), decode w = .command i →
    performWordUnder tb w s = execUnder tb i s) ∧
  (∀ (tb : Tables) (i : Instr) (s : State), i.op ∉ [Op.ldkey, Op.encb, Op.decb, Op.msgblk] →
    execUnder tb i s = exec i s) ∧
  (∀ s : State, step s = stepUnder tables s) ∧ (∀ (i : Instr) (s : State), exec i s = execUnder tables i s) ∧
  (∀ (w : Word) (s : State), performWord w s = performWordUnder tables w s) ∧
  (∀ (tb : Tables) (s : State), validTables tb = false → stepUnder tb s = .fault .invalidTables)

/-- R235, R257: with no host event the core is idle: every register and every port but the `rsp_valid` pulse keeps its
value, and no response is given; that an empty event list is such a moment is the model's choice (log entry 2), and so is
what the `rsp_data` port keeps while RSP_DVALID = 0 (log entry 8). 70 R256,
93 U3: a broken handshake has no transition; the host event that stands for it is the model's (log entry 4). -/
def Obligations.StepWithoutACommandWord : Prop :=
  (∀ s : State, s.host = [] → ∃ t, step s = .next t ∧ sameRegisters s t ∧ t.responses = s.responses ∧ t.host = [] ∧
    ports t = { ports s with rspValid := false }) ∧
  (∀ (s : State) (w : Word) (rest : List HostEvent), s.host = .unstableOffer w :: rest →
    step s = .refused .hostBrokeHandshake)

/-- R252: reset while a command is in progress abandons it: the registers have their reset values, and no response is
given, whatever the command and the state. Reset as a host event, and what it keeps of the host's side, is log entry 3. -/
def Obligations.ResetAbandonsTheCommandInProgress : Prop :=
  ∀ (s : State) (p : Option Word) (rest : List HostEvent), s.host = .reset p :: rest →
    ∃ t, step s = .next t ∧ atReset t ∧ t.responses = s.responses ∧ t.rspValid = false ∧ t.host = rest

/-- R42: the values after reset. -/
def Obligations.ResetValuesOfEveryRegister : Prop :=
  atReset State.reset ∧ status State.reset = 0x0000 ∧ (ports State.reset).cmdReady = true ∧
    (ports State.reset).rspValid = false

/-! ### Invariants and whole-machine rules (10_state.md R38, 60_exceptions.md) -/

/-- The invariants R38 (a) to (f) hold at reset, under every TABLES. -/
def Obligations.ResetMeetsTheInvariants : Prop := State.reset.Inv ∧ ∀ tb : Tables, State.reset.InvUnder tb

/-- Every step keeps the invariants R38 (a) to (f), under this machine's TABLES and under every other. -/
def Obligations.StepKeepsTheInvariants : Prop :=
  (∀ s t : State, s.Inv → step s = .next t → t.Inv) ∧
  (∀ (tb : Tables) (s t : State), s.InvUnder tb → stepUnder tb s = .next t → t.InvUnder tb)

/-- Under the invariants every command word is answered with a next state: no `none` is read (R23) and every accepted
command completes (70 R262); so it is under every TABLES. -/
def Obligations.EveryWordIsAnsweredUnderTheInvariants : Prop :=
  (∀ (w : Word) (s : State), s.Inv → ∃ t, performWord w s = .next t) ∧
  (∀ (tb : Tables) (w : Word) (s : State), s.InvUnder tb → ∃ t, performWordUnder tb w s = .next t)

/-- R23: a command that would read a register holding `none` faults and picks no value. The name of the register in the
fault, K1 before K2 before CHAIN, is the model's (log entry 12). -/
def Obligations.ReadOfNoneFaults : Prop :=
  (∀ s : State, s.keyValid = true → s.k1 = none → exec .rdk1 s = .fault (.readOfNone .k1)) ∧
  (∀ s : State, s.keyValid = true → s.k2 = none → exec .rdk2 s = .fault (.readOfNone .k2)) ∧
  (∀ (s : State) (b : Block), s.keyValid = true → s.k1 = none →
    exec (.encb b) s = .fault (.readOfNone .k1) ∧ exec (.decb b) s = .fault (.readOfNone .k1)) ∧
  (∀ (s : State) (b : Block), s.keyValid = true → s.k1 ≠ none → s.k2 = none →
    exec (.encb b) s = .fault (.readOfNone .k2) ∧ exec (.decb b) s = .fault (.readOfNone .k2)) ∧
  (∀ (s : State) (d : Dir) (n : BitVec 16), s.msgActive = false → s.keyValid = true → s.ivValid = true →
    s.iv = none → n.toNat % 8 = 0 → exec (.msgbegin .cbc d n) s = .fault (.readOfNone .iv)) ∧
  (∀ (s : State) (b : Block), s.msgActive = true → s.k1 = none → exec (.msgblk b) s = .fault (.readOfNone .k1)) ∧
  (∀ (s : State) (b : Block), s.msgActive = true → s.k1 ≠ none → s.k2 = none →
    exec (.msgblk b) s = .fault (.readOfNone .k2)) ∧
  (∀ (s : State) (b : Block), s.msgActive = true → s.k1 ≠ none → s.k2 ≠ none → s.msgMode = .cbc →
    s.chain = none → exec (.msgblk b) s = .fault (.readOfNone .chain))

/-- R38 (g): while a session is active no command changes KEY, K1, K2. -/
def Obligations.KeyIsFixedDuringASession : Prop :=
  ∀ (w : Word) (s t : State), s.msgActive = true → performWord w s = .next t → sameKey s t

/-- R22, R24, R25: only LDKEY writes the key registers and only LDIV the IV registers; only reset clears a valid bit. -/
def Obligations.KeyAndIvChangeOnlyByTheirLoadOrReset : Prop :=
  (∀ s t : State, step s = .next t →
    sameKey s t ∨ (∃ w rest k, s.host = .command w :: rest ∧ decode w = .command (.ldkey k)) ∨
      ∃ p rest, s.host = .reset p :: rest) ∧
  (∀ s t : State, step s = .next t →
    sameIv s t ∨ (∃ w rest v, s.host = .command w :: rest ∧ decode w = .command (.ldiv v)) ∨
      ∃ p rest, s.host = .reset p :: rest) ∧
  (∀ s t : State, step s = .next t →
    (s.keyValid = true ∧ t.keyValid = false) ∨ (s.ivValid = true ∧ t.ivValid = false) →
    ∃ p rest, s.host = .reset p :: rest)

/-- R26: a command outside CBC (MSGBLK in an ECB session, MSGBEGIN ecb) leaves CHAIN alone; CHAIN after a CBC MSGBLK is the
ciphertext block, in both directions. -/
def Obligations.ChainHoldsTheCiphertextInCbcOnly : Prop :=
  (∀ (i : Instr) (s t : State), exec i s = .next t →
    (∀ b, i = .msgblk b → s.msgMode = .ecb) → (∀ d n, i ≠ .msgbegin .cbc d n) → t.chain = s.chain) ∧
  (∀ (b : Block) (s t : State), exec (.msgblk b) s = .next t → t.lastErr = 0 → s.msgMode = .cbc →
    t.chain = if s.msgDir = .enc then t.rspData else some b)

/-- R189: a session ends only by the MSGBLK that takes BLK_LEFT from 1 to 0, by MSGABORT, or by reset, and each of these
ends it; a refused command leaves it running. -/
def Obligations.SessionEndsInThreeWaysOnly : Prop :=
  (∀ s t : State, step s = .next t → s.msgActive = true → t.msgActive = false →
    (∃ w rest b, s.host = .command w :: rest ∧ decode w = .command (.msgblk b) ∧ s.blkLeft = 1 ∧ t.blkLeft = 0) ∨
    (∃ w rest, s.host = .command w :: rest ∧ decode w = .command .msgabort) ∨
    ∃ p rest, s.host = .reset p :: rest) ∧
  (∀ (b : Block) (s t : State), exec (.msgblk b) s = .next t → s.msgActive = true → s.blkLeft = 1 →
    t.msgActive = false ∧ t.blkLeft = 0) ∧
  (∀ s t : State, exec .msgabort s = .next t → t.msgActive = false) ∧
  (∀ (s t : State) (p : Option Word) (rest : List HostEvent), s.host = .reset p :: rest → step s = .next t →
    t.msgActive = false) ∧
  (∀ (w : Word) (s t : State), performWord w s = .next t → t.lastErr ≠ 0 → sameSession s t)

/-- R190: what may be interleaved in a session and what it does to the session registers and the key. -/
def Obligations.InterleavedCommandsKeepTheSession : Prop :=
  (∀ (i : Instr) (s t : State), i.op ∈ [Op.encb, Op.decb, Op.rdk1, Op.rdk2, Op.ldiv, Op.nop] →
    exec i s = .next t → sameSession s t ∧ sameKey s t) ∧
  (∀ (i : Instr) (s : State), i.op ∈ [Op.ldkey, Op.msgbegin] → s.msgActive = true →
    ∃ t, exec i s = .next t ∧ failsWith 6 s t) ∧
  (∀ (w : Word) (s t : State), performWord w s = .next t → t.lastErr ≠ 0 ∨ (∀ i, decode w ≠ .command i) →
    sameSession s t ∧ sameKey s t)

/-- R222: a failing command writes LAST_ERR, STICKY_ERR, RSP_DVALID and RSP_DATA and every other register keeps its value;
a successful one writes LAST_ERR <- OK and leaves STICKY_ERR unchanged. -/
def Obligations.FailingCommandChangesOnlyTheErrorAnswer : Prop :=
  (∀ (w : Word) (s t : State), performWord w s = .next t → t.lastErr ≠ 0 → failsWith t.lastErr s t) ∧
  (∀ (w : Word) (s t : State), performWord w s = .next t → t.lastErr = 0 → t.stickyErr = s.stickyErr)

/-- R223: a command raises the first error that applies in the order of the table; an illegal word raises ILLEGAL_CMD
before every other. -/
def Obligations.FirstApplicableErrorIsRaised : Prop :=
  (∀ (i : Instr) (s t : State), exec i s = .next t → t.lastErr = errBits (firstError i s)) ∧
  (∀ (w : Word) (y : Illegal) (s t : State), decode w = .illegal y → performWord w s = .next t → t.lastErr = 1) ∧
  (∃ t, exec (.msgbegin .cbc .enc 20) State.reset = .next t ∧ t.lastErr = 2)

/-- R228: a response never carries INVALID_LENGTH, INVALID_BIT_VALUE or a reserved code. -/
def Obligations.ReservedErrorCodesAreNeverGiven : Prop :=
  ∀ (w : Word) (s t : State), performWord w s = .next t → t.lastErr.toNat ≤ 6

/-- R30: STICKY_ERR is set by every failing command, and cleared by no command, only by reset. -/
def Obligations.StickyErrorIsClearedOnlyByReset : Prop :=
  (∀ (w : Word) (s t : State), performWord w s = .next t → t.lastErr ≠ 0 → t.stickyErr = true) ∧
  (∀ (w : Word) (s t : State), performWord w s = .next t → s.stickyErr = true → t.stickyErr = true) ∧
  (∀ s t : State, step s = .next t → s.stickyErr = true → t.stickyErr = false → ∃ p rest, s.host = .reset p :: rest) ∧
  (∀ (s t : State) (p : Option Word) (rest : List HostEvent), s.host = .reset p :: rest → step s = .next t →
    t.stickyErr = false)

/-- R31: RSP_DVALID = 1 exactly when the command succeeded and returns data (ENCB, DECB, MSGBLK, RDK1, RDK2); else RSP_DATA
is `none`. -/
def Obligations.DataIsValidExactlyForDataCommands : Prop :=
  (∀ (i : Instr) (s t : State), exec i s = .next t →
    (t.rspDvalid = true ↔ t.lastErr = 0 ∧ i.op ∈ [Op.encb, Op.decb, Op.msgblk, Op.rdk1, Op.rdk2]) ∧
      t.rspData.isSome = t.rspDvalid) ∧
  (∀ (w : Word) (y : Illegal) (s t : State), decode w = .illegal y → performWord w s = .next t →
    t.rspDvalid = false ∧ t.rspData = none)

/-- R36, 70 R255: each command gives exactly one response, made of the new LAST_ERR, RSP_DVALID and RSP_DATA, after those
given before, and takes nothing from the host's later events. -/
def Obligations.EachCommandGivesOneResponse : Prop :=
  ∀ (w : Word) (s t : State), performWord w s = .next t → gives t.lastErr t.rspDvalid t.rspData s t

/-- R21, R41: the master key is never readable: with another value in KEY the ports and the responses of every command
are the same, and so is every field of the state after it but KEY itself, so the same holds of the commands that follow.
That the `rsp_data` port is the same also while RSP_DVALID = 0, where 93 U2 allows any value, is no rule of the spec: it
rests on the model's choice that the free value there depends on a counter alone (log entry 8, DESIGN CHOICE). -/
def Obligations.KeyRegisterIsNeverReadable : Prop :=
  ∀ (w : Word) (s t : State) (k : Option Key), performWord w s = .next t →
    ∃ u, performWord w { s with key := k } = .next u ∧ ports u = ports t ∧ u.responses = t.responses ∧
      { u with key := t.key } = t

/-- R58: LDKEY, LDIV, NOP, MSGABORT, RDK1 and RDK2 give the same state of the registers when repeated. -/
def Obligations.RepeatedCommandGivesTheSameRegisters : Prop :=
  ∀ (i : Instr) (s t : State), i.op ∈ [Op.ldkey, Op.ldiv, Op.nop, Op.msgabort, Op.rdk1, Op.rdk2] →
    exec i s = .next t → ∃ u, exec i t = .next u ∧ sameRegisters t u

/-- R32, R33: the fields of STATUS, its reserved bits, and the `blk_left` port. -/
def Obligations.StatusShowsTheFlags : Prop :=
  ∀ s : State,
    (status s).getLsbD 0 = s.keyValid ∧ (status s).getLsbD 1 = s.ivValid ∧ (status s).getLsbD 2 = s.msgActive ∧
    (status s).getLsbD 3 = decide (s.msgMode = .cbc) ∧ (status s).getLsbD 4 = decide (s.msgDir = .dec) ∧
    (status s).getLsbD 5 = s.stickyErr ∧ (status s).extractLsb' 6 2 = 0 ∧ (status s).extractLsb' 8 4 = s.lastErr ∧
    (status s).extractLsb' 12 4 = 0 ∧ (ports s).status = status s ∧ (ports s).blkLeft = s.blkLeft

/-- R39: the response ports show LAST_ERR and RSP_DVALID, and RSP_DATA while it is valid. -/
def Obligations.ResponsePortsShowTheResponse : Prop :=
  (∀ s : State, (ports s).rspErr = s.lastErr ∧ (ports s).rspDvalid = s.rspDvalid) ∧
  (∀ (s : State) (d : Block), s.rspDvalid = true → s.rspData = some d → (ports s).rspData = d)

/-! ### The commands -/

/-- R210: NOP. -/
def Obligations.NopReportsSuccess : Prop :=
  encodedAs .nop 0x00000000 0xFFFFFFFF ∧
  (∀ s : State, ∃ t, exec .nop s = .next t ∧ succeedsWith none s t ∧ sameKey s t ∧ sameIv s t ∧ sameSession s t) ∧
  (∃ t, exec .nop State.reset = .next t ∧ gives 0 false none State.reset t ∧ sameRegisters State.reset t ∧
    status t = 0x0000)

/-- R135: LDKEY loads the key and both subkeys, or answers MSG_BUSY during a session. -/
def Obligations.LdkeyLoadsKeyAndSubkeys : Prop :=
  encodedAs .ldkey 0x10000000 0xFFFFFC00 ∧
  (∀ (w : Word) (k : Key), decode w = .command (.ldkey k) → k = w.extractLsb' 0 10) ∧
  (∀ (k : Key) (s : State), s.msgActive = true → ∃ t, exec (.ldkey k) s = .next t ∧ failsWith 6 s t) ∧
  (∀ (k : Key) (s : State), s.msgActive = false →
    ∃ t, exec (.ldkey k) s = .next t ∧ succeedsWith none s t ∧ t.key = some k ∧
      t.k1 = some (keySchedule tables k).1 ∧ t.k2 = some (keySchedule tables k).2 ∧ t.keyValid = true ∧
      sameIv s t ∧ sameSession s t) ∧
  (∀ (k : Key) (s : State), s.msgActive = false → s.key = some k → s.Inv →
    ∃ t, exec (.ldkey k) s = .next t ∧ sameKey s t)

/-- R136: RDK1 returns K1, or answers NO_KEY. -/
def Obligations.RdkOneReturnsTheFirstSubkey : Prop :=
  encodedAs .rdk1 0x80000000 0xFFFFFFFF ∧
  (∀ s : State, s.keyValid = false → ∃ t, exec .rdk1 s = .next t ∧ failsWith 2 s t) ∧
  (∀ (s : State) (a : Block), s.keyValid = true → s.k1 = some a →
    ∃ t, exec .rdk1 s = .next t ∧ succeedsWith (some a) s t ∧ sameKey s t ∧ sameIv s t ∧ sameSession s t)

/-- R137: RDK2 returns K2, or answers NO_KEY. -/
def Obligations.RdkTwoReturnsTheSecondSubkey : Prop :=
  encodedAs .rdk2 0x90000000 0xFFFFFFFF ∧
  (∀ s : State, s.keyValid = false → ∃ t, exec .rdk2 s = .next t ∧ failsWith 2 s t) ∧
  (∀ (s : State) (a : Block), s.keyValid = true → s.k2 = some a →
    ∃ t, exec .rdk2 s = .next t ∧ succeedsWith (some a) s t ∧ sameKey s t ∧ sameIv s t ∧ sameSession s t)

/-- R170: ENCB returns EncSub of its operand under K1 and K2, also during a session, or answers NO_KEY. -/
def Obligations.EncbReturnsTheEncryptedBlock : Prop :=
  encodedAs .encb 0x20000000 0xFFFFFF00 ∧
  (∀ (w : Word) (b : Block), decode w = .command (.encb b) → b = w.extractLsb' 0 8) ∧
  (∀ (b : Block) (s : State), s.keyValid = false → ∃ t, exec (.encb b) s = .next t ∧ failsWith 2 s t) ∧
  (∀ (b k1 k2 : Block) (s : State), s.keyValid = true → s.k1 = some k1 → s.k2 = some k2 →
    ∃ t, exec (.encb b) s = .next t ∧ succeedsWith (some (encSub tables b k1 k2)) s t ∧
      sameKey s t ∧ sameIv s t ∧ sameSession s t)

/-- R171: DECB returns DecSub of its operand under K1 and K2, also during a session, or answers NO_KEY. -/
def Obligations.DecbReturnsTheDecryptedBlock : Prop :=
  encodedAs .decb 0x30000000 0xFFFFFF00 ∧
  (∀ (w : Word) (b : Block), decode w = .command (.decb b) → b = w.extractLsb' 0 8) ∧
  (∀ (b : Block) (s : State), s.keyValid = false → ∃ t, exec (.decb b) s = .next t ∧ failsWith 2 s t) ∧
  (∀ (b k1 k2 : Block) (s : State), s.keyValid = true → s.k1 = some k1 → s.k2 = some k2 →
    ∃ t, exec (.decb b) s = .next t ∧ succeedsWith (some (decSub tables b k1 k2)) s t ∧
      sameKey s t ∧ sameIv s t ∧ sameSession s t)

/-- R185: LDIV loads IV from every state and touches neither CHAIN nor the session. -/
def Obligations.LdivLoadsTheVector : Prop :=
  encodedAs .ldiv 0x40000000 0xFFFFFF00 ∧
  (∀ (w : Word) (v : Block), decode w = .command (.ldiv v) → v = w.extractLsb' 0 8) ∧
  (∀ (v : Block) (s : State), ∃ t, exec (.ldiv v) s = .next t ∧ succeedsWith none s t ∧ t.iv = some v ∧
    t.ivValid = true ∧ sameKey s t ∧ sameSession s t) ∧
  (∀ (v : Block) (s t : State), exec (.ldiv v) s = .next t →
    ∃ u, exec (.ldiv v) t = .next u ∧ sameRegisters t u)

/-- R186: MSGBEGIN starts a session, or answers the first of MSG_BUSY, NO_KEY, NO_IV and MSG_NOT_ALIGNED and changes no
session register. -/
def Obligations.MsgbeginStartsASession : Prop :=
  encodedAs .msgbegin 0x50000000 0xFFFC0000 ∧
  (∀ (w : Word) (m : Mode) (d : Dir) (n : BitVec 16), decode w = .command (.msgbegin m d n) →
    (d = if w.getLsbD 17 then .dec else .enc) ∧ (m = if w.getLsbD 16 then .cbc else .ecb) ∧
      n = w.extractLsb' 0 16) ∧
  (∀ (m : Mode) (d : Dir) (n : BitVec 16) (s : State), s.msgActive = true →
    ∃ t, exec (.msgbegin m d n) s = .next t ∧ failsWith 6 s t) ∧
  (∀ (m : Mode) (d : Dir) (n : BitVec 16) (s : State), s.msgActive = false → s.keyValid = false →
    ∃ t, exec (.msgbegin m d n) s = .next t ∧ failsWith 2 s t) ∧
  (∀ (d : Dir) (n : BitVec 16) (s : State), s.msgActive = false → s.keyValid = true → s.ivValid = false →
    ∃ t, exec (.msgbegin .cbc d n) s = .next t ∧ failsWith 3 s t) ∧
  (∀ (m : Mode) (d : Dir) (n : BitVec 16) (s : State), s.msgActive = false → s.keyValid = true →
    (m = .cbc → s.ivValid = true) → n.toNat % 8 ≠ 0 →
    ∃ t, exec (.msgbegin m d n) s = .next t ∧ failsWith 4 s t) ∧
  (∀ (d : Dir) (n : BitVec 16) (s : State), s.msgActive = false → s.keyValid = true → n.toNat % 8 = 0 →
    ∃ t, exec (.msgbegin .ecb d n) s = .next t ∧ succeedsWith none s t ∧ t.msgMode = .ecb ∧ t.msgDir = d ∧
      t.blkLeft.toNat = n.toNat / 8 ∧ t.msgActive = decide (n ≠ 0) ∧ t.chain = s.chain ∧ sameKey s t ∧ sameIv s t) ∧
  (∀ (d : Dir) (n : BitVec 16) (v : Block) (s : State), s.msgActive = false → s.keyValid = true →
    s.ivValid = true → s.iv = some v → n.toNat % 8 = 0 →
    ∃ t, exec (.msgbegin .cbc d n) s = .next t ∧ succeedsWith none s t ∧ t.msgMode = .cbc ∧ t.msgDir = d ∧
      t.blkLeft.toNat = n.toNat / 8 ∧ t.msgActive = decide (n ≠ 0) ∧ t.chain = some v ∧ sameKey s t ∧ sameIv s t) ∧
  (∀ n : BitVec 16, n.toNat % 8 = 0 → n.toNat ≤ 65528 ∧ n.toNat / 8 ≤ 8191)

/-- R187: MSGBLK processes the next block in the session's mode and direction, or answers NO_MESSAGE; in a state that meets
the invariants BLK_LEFT does not underflow and the command completes. -/
def Obligations.MsgblkProcessesTheNextBlock : Prop :=
  encodedAs .msgblk 0x60000000 0xFFFFFF00 ∧
  (∀ (w : Word) (b : Block), decode w = .command (.msgblk b) → b = w.extractLsb' 0 8) ∧
  (∀ (b : Block) (s : State), s.msgActive = false → ∃ t, exec (.msgblk b) s = .next t ∧ failsWith 5 s t) ∧
  (∀ (b k1 k2 : Block) (s : State), s.msgActive = true → s.k1 = some k1 → s.k2 = some k2 → s.msgMode = .ecb →
    ∃ t, exec (.msgblk b) s = .next t ∧
      succeedsWith (some (if s.msgDir = .enc then encSub tables b k1 k2 else decSub tables b k1 k2)) s t ∧
      t.chain = s.chain ∧ t.blkLeft = s.blkLeft - 1 ∧ t.msgActive = decide (s.blkLeft ≠ 1) ∧
      t.msgMode = s.msgMode ∧ t.msgDir = s.msgDir ∧ sameKey s t ∧ sameIv s t) ∧
  (∀ (b k1 k2 c : Block) (s : State), s.msgActive = true → s.k1 = some k1 → s.k2 = some k2 → s.msgMode = .cbc →
    s.msgDir = .enc → s.chain = some c →
    ∃ t, exec (.msgblk b) s = .next t ∧ succeedsWith (some (encSub tables (b ^^^ c) k1 k2)) s t ∧
      t.chain = some (encSub tables (b ^^^ c) k1 k2) ∧ t.blkLeft = s.blkLeft - 1 ∧
      t.msgActive = decide (s.blkLeft ≠ 1) ∧ t.msgMode = s.msgMode ∧ t.msgDir = s.msgDir ∧ sameKey s t ∧ sameIv s t) ∧
  (∀ (b k1 k2 c : Block) (s : State), s.msgActive = true → s.k1 = some k1 → s.k2 = some k2 → s.msgMode = .cbc →
    s.msgDir = .dec → s.chain = some c →
    ∃ t, exec (.msgblk b) s = .next t ∧ succeedsWith (some (decSub tables b k1 k2 ^^^ c)) s t ∧
      t.chain = some b ∧ t.blkLeft = s.blkLeft - 1 ∧ t.msgActive = decide (s.blkLeft ≠ 1) ∧
      t.msgMode = s.msgMode ∧ t.msgDir = s.msgDir ∧ sameKey s t ∧ sameIv s t) ∧
  (∀ (b : Block) (s : State), s.Inv → s.msgActive = true →
    ∃ t, exec (.msgblk b) s = .next t ∧ t.lastErr = 0 ∧ t.blkLeft.toNat + 1 = s.blkLeft.toNat)

/-- R188: MSGABORT ends the session, if any, from every state. -/
def Obligations.MsgabortEndsTheSession : Prop :=
  encodedAs .msgabort 0x70000000 0xFFFFFFFF ∧
  (∀ s : State, ∃ t, exec .msgabort s = .next t ∧ succeedsWith none s t ∧ t.msgActive = false ∧ t.blkLeft = 0 ∧
    t.chain = s.chain ∧ t.msgMode = s.msgMode ∧ t.msgDir = s.msgDir ∧ sameKey s t ∧ sameIv s t) ∧
  (∀ s : State, s.Inv → s.msgActive = false → ∃ t, exec .msgabort s = .next t ∧ sameSession s t)

/-- The examples that the command rules R135, R136, R137, R170, R171, R185, R186 and R187 give, each after the commands the
example names, under the default tables. PRESUMED entries (log entry 6). -/
def Obligations.CommandExamplesUnderTheDefaultTables : Prop :=
  ∃ s v u : State,
    exec (.ldkey 0b1010000010) State.reset = .next s ∧ gives 0 false none State.reset s ∧
      s.k1 = some 0b10100100 ∧ s.k2 = some 0b01000011 ∧ s.keyValid = true ∧
    (∃ t, exec .rdk1 s = .next t ∧ gives 0 true (some 0b10100100) s t) ∧
    (∃ t, exec .rdk2 s = .next t ∧ gives 0 true (some 0b01000011) s t) ∧
    (∃ t, exec (.encb 0b11010111) s = .next t ∧ gives 0 true (some 0b10101000) s t) ∧
    (∃ t, exec (.decb 0b10101000) s = .next t ∧ gives 0 true (some 0b11010111) s t) ∧
    exec (.ldiv 0b01010101) s = .next v ∧ gives 0 false none s v ∧ v.iv = some 0b01010101 ∧ v.ivValid = true ∧
    exec (.msgbegin .cbc .enc 24) v = .next u ∧ gives 0 false none v u ∧ u.msgActive = true ∧ u.msgMode = .cbc ∧
      u.msgDir = .enc ∧ u.blkLeft = 3 ∧ u.chain = some 0b01010101 ∧
    (∃ t, exec (.msgblk 0b11010111) u = .next t ∧ gives 0 true (some 0b00001011) u t ∧
      t.chain = some 0b00001011 ∧ t.blkLeft = 2)

/-! ### The datapath (40_bitvector.md to 44_block_core.md) -/

/-- R102: every element of a permuted sequence is the element the pattern names. -/
def Obligations.PermutationPicksThePatternsElements : Prop :=
  ∀ (n m : Nat) (v : BitVec n) (p : List Nat), p.length = m → (∀ k ∈ p, 1 ≤ k ∧ k ≤ n) →
    ∀ (i : Nat) (h : i < p.length), element (perm m v p) i = element v (p[i] - 1)

/-- R101: circular left rotation by elements. -/
def Obligations.RotationMovesElementsLeft : Prop :=
  (∀ (w : Nat) (v : BitVec w) (n : Nat), n < w → ∀ i < w, element (rotl v n) i = element v ((i + n) % w)) ∧
  (∀ (w : Nat) (v : BitVec w), rotl v 0 = v) ∧
  (∀ (w : Nat) (v : BitVec w) (n : Nat), n < w → rotl v n = v.rotateLeft n) ∧
  rotl (0b10000 : BitVec 5) 1 = 0b00001 ∧ rotl (0b00001 : BitVec 5) 2 = 0b00100

/-- R106: the laws of xorSeq, of rotation, and of a pattern and its inverse. -/
def Obligations.BitVectorLaws : Prop :=
  (∀ (w : Nat) (a b : BitVec w), xorSeq (xorSeq a b) b = a ∧ xorSeq a b = xorSeq b a ∧ xorSeq a a = 0) ∧
  (∀ (w : Nat) (v : BitVec w) (m n : Nat), m < w → n < w → rotl (rotl v m) n = rotl v ((m + n) % w)) ∧
  (∀ (w : Nat) (v : BitVec w), rotl v 0 = v) ∧
  (∀ (w : Nat) (v : BitVec w) (n : Nat), n < w → (fun x => rotl x n)^[w] v = v) ∧
  (∀ (t : Tables) (v : Block), validTables t = true → perm 8 (perm 8 v t.ip) t.ipInv = v)

/-- R105: the default tables meet every requirement on a configuration. The entries themselves are PRESUMED (log entry 6). -/
def Obligations.DefaultTablesAreAValidConfiguration : Prop :=
  validTables tables = true ∧ tables.p10.Nodup ∧ tables.ip.Nodup ∧ tables.ipInv.Nodup ∧ tables.p4.Nodup ∧ tables.p8.Nodup

/-- 40_bitvector.md R104: the patterns of the default tables as wiring of hardware bits. PRESUMED entries (log entry 6). -/
def Obligations.DefaultPatternsAsWiring : Prop :=
  (∀ v : Key, ∀ j < 10, (perm 10 v tables.p10).getLsbD (9 - j) = v.getLsbD ([7, 5, 8, 3, 6, 0, 9, 1, 2, 4].getD j 0)) ∧
  (∀ v : Key, ∀ j < 8, (perm 8 v tables.p8).getLsbD (7 - j) = v.getLsbD ([4, 7, 3, 6, 2, 5, 0, 1].getD j 0)) ∧
  (∀ v : Block, ∀ j < 8, (perm 8 v tables.ip).getLsbD (7 - j) = v.getLsbD ([6, 2, 5, 7, 4, 0, 3, 1].getD j 0)) ∧
  (∀ v : Block, ∀ j < 8, (perm 8 v tables.ipInv).getLsbD (7 - j) = v.getLsbD ([4, 7, 5, 3, 1, 6, 0, 2].getD j 0)) ∧
  (∀ v : Half, ∀ j < 8, (perm 8 v tables.expand).getLsbD (7 - j) = v.getLsbD ([0, 3, 2, 1, 2, 1, 0, 3].getD j 0)) ∧
  (∀ v : Half, ∀ j < 4, (perm 4 v tables.p4).getLsbD (3 - j) = v.getLsbD ([2, 0, 1, 3].getD j 0))

/-- 41_sbox.md R120, R121: row from the outer bits, column from the inner bits, high-order output bit first, for any box
with entries in 0..3; and the truth table of both default boxes. PRESUMED entries (log entry 6). -/
def Obligations.BoxLookupByRowAndColumn : Prop :=
  (∀ (b0 b1 b2 b3 : Bool) (s : List (List Nat)), isBox s = true →
    let x : BitVec 4 := BitVec.ofBool b0 ++ BitVec.ofBool b1 ++ BitVec.ofBool b2 ++ BitVec.ofBool b3
    (sbox x s).toNat = (s.getD (2 * b0.toNat + b3.toNat) []).getD (2 * b1.toNat + b2.toNat) 0) ∧
  (∀ n < 4, (element (bin2 n) 0).toNat = n / 2 ∧ (element (bin2 n) 1).toNat = n % 2) ∧
  (List.range 16).map (fun x => (sbox (BitVec.ofNat 4 x) tables.s0).toNat) =
    [1, 3, 0, 2, 3, 1, 2, 0, 0, 3, 2, 1, 1, 3, 3, 2] ∧
  (List.range 16).map (fun x => (sbox (BitVec.ofNat 4 x) tables.s1).toNat) =
    [0, 2, 1, 0, 2, 1, 3, 3, 3, 2, 0, 1, 1, 0, 0, 3]

/-- The examples of R102, R120, R162 and R163, and KeySchedule, F, Fk, Encrypt and Decrypt on vectors of
95_test_vectors.md (V-K1 to V-K4, V-F1, V-F6, V-B1 to V-B4). PRESUMED entries (log entry 6). -/
def Obligations.DefaultDatapathVectors : Prop :=
  perm 8 (0b11010111 : Block) tables.ip = 0b11011101 ∧ sbox 0b0001 tables.s0 = 0b11 ∧
  encSub tables 0b11010111 0b10100100 0b01000011 = 0b10101000 ∧
  decSub tables 0b10101000 0b10100100 0b01000011 = 0b11010111 ∧
  keySchedule tables 0b1010000010 = (0b10100100, 0b01000011) ∧
  keySchedule tables 0b0000000000 = (0b00000000, 0b00000000) ∧
  keySchedule tables 0b1111111111 = (0b11111111, 0b11111111) ∧
  keySchedule tables 0b0111111101 = (0b01011111, 0b11111100) ∧
  roundF tables 0b0111 0b10100100 = 0b1001 ∧ roundF tables 0b1101 0b10100100 = 0b1111 ∧
  fk tables 0b11011101 0b10100100 = 0b00101101 ∧
  encrypt tables 0b10010111 0b1010000010 = 0b00111000 ∧ decrypt tables 0b10010111 0b1010000010 = 0b10001100 ∧
  encrypt tables 0b10101010 0b0111111101 = 0b00010110 ∧ encrypt tables 0b00000000 0b0000000000 = 0b11110000

/-- R132 for the default tables: KeySchedule is injective. PRESUMED entries (log entry 6). -/
def Obligations.DefaultKeyScheduleIsInjective : Prop :=
  ∀ k l : Key, keySchedule tables k = keySchedule tables l → k = l

/-- R160: one Feistel round masks the left half, keeps the right half, and undoes itself. -/
def Obligations.FeistelRoundUndoesItself : Prop :=
  (∀ (t : Tables) (b sk : Block),
    left 4 (fk t b sk) = left 4 b ^^^ roundF t (right 4 b) sk ∧ right 4 (fk t b sk) = right 4 b) ∧
  (∀ (t : Tables) (b sk : Block), fk t (fk t b sk) sk = b)

/-- R161: the half swap. -/
def Obligations.HalfSwapUndoesItself : Prop :=
  (∀ b : Block, left 4 (sw b) = right 4 b ∧ right 4 (sw b) = left 4 b) ∧ (∀ b : Block, sw (sw b) = b) ∧
  sw 0b00101101 = 0b11010010

/-- R165: decryption undoes encryption and encryption undoes decryption, for every TABLES that meets R105. -/
def Obligations.DecryptUndoesEncrypt : Prop :=
  ∀ (t : Tables) (b : Block) (k : Key), validTables t = true →
    decrypt t (encrypt t b k) k = b ∧ encrypt t (decrypt t b k) k = b

/-- R138, R172: after LDKEY, RDK1 and RDK2 answer the key schedule, and ENCB and DECB answer Encrypt and Decrypt, under
every TABLES; `exec` is the case of this machine's TABLES (StepPerformsTheOfferedWord). -/
def Obligations.CommandsAfterLdkeyComputeTheSourceFunctions : Prop :=
  ∀ (tb : Tables) (k : Key) (s : State), s.msgActive = false →
    ∃ t, execUnder tb (.ldkey k) s = .next t ∧ succeedsWith none s t ∧
    (∃ u, execUnder tb .rdk1 t = .next u ∧ gives 0 true (some (keySchedule tb k).1) t u) ∧
    (∃ u, execUnder tb .rdk2 t = .next u ∧ gives 0 true (some (keySchedule tb k).2) t u) ∧
    (∀ b : Block, ∃ u, execUnder tb (.encb b) t = .next u ∧ gives 0 true (some (encrypt tb b k)) t u) ∧
    (∀ b : Block, ∃ u, execUnder tb (.decb b) t = .next u ∧ gives 0 true (some (decrypt tb b k)) t u)

/-! ### Messages (45_modes.md) -/

/-- R180, R184: a message has blocks exactly when its length is a multiple of 8; there are L/8 of them, element j of block
i is message element 8i + j, and a mode function's result is its blocks' elements concatenated in order, empty for the
empty message; any other message is refused with MSG_NOT_ALIGNED. -/
def Obligations.MisalignedMessageHasNoResult : Prop :=
  (∀ m : List Bool, (blocksOf m).isSome = true ↔ m.length % 8 = 0) ∧
  (∀ (m : List Bool) (bs : List Block), blocksOf m = some bs → bitsOf bs = m ∧ bs.length = m.length / 8 ∧
    ∀ (i : Nat) (h : i < bs.length), ∀ j < 8, m[8 * i + j]? = some (element bs[i] j)) ∧
  (∀ (tb : Tables) (k : Key) (iv : Block) (mode : Mode) (dir : Dir) (m : List Bool) (bs : List Block),
    blocksOf m = some bs → modeMessage tb k iv mode dir m = .ok (bitsOf (modeBlocks tb k iv mode dir bs))) ∧
  (∀ (tb : Tables) (k : Key) (iv : Block) (mode : Mode) (dir : Dir), modeMessage tb k iv mode dir [] = .ok []) ∧
  (∀ (tb : Tables) (k : Key) (iv : Block) (mode : Mode) (dir : Dir) (m : List Bool), m.length % 8 ≠ 0 →
    modeMessage tb k iv mode dir m = .error .msgNotAligned)

/-- R196: a session over the blocks of a message, with any other words but MSGBLK and MSGABORT between them, gives the mode
function of the message and ends, under every TABLES. `segs` lists, for each block, the words sent before it; the state
is one that meets the invariants, with the key (and for CBC the IV) loaded. `performWord` is the case of this machine's
TABLES (StepPerformsTheOfferedWord). -/
def Obligations.SessionComputesTheModeFunction : Prop :=
  ∀ (tb : Tables) (k : Key) (iv : Block) (mode : Mode) (dir : Dir) (n : BitVec 16) (segs : List (List Word × Block))
    (s : State),
    s.InvUnder tb → s.msgActive = false → s.key = some k → (mode = .cbc → s.iv = some iv) →
    n.toNat = 8 * segs.length → (∀ g ∈ segs, ∀ w ∈ g.1, mayInterleave w = true) →
    ∃ u t, performWordUnder tb (encode (.msgbegin mode dir n)) s = .next u ∧ u.lastErr = 0 ∧
      sendBlocks tb segs u = some (modeBlocks tb k iv mode dir (segs.map (fun g => g.2)), t) ∧
      t.msgActive = false ∧ t.blkLeft = 0

/-- R80: each function of the source is reached by its command sequence: the data of the responses, in order, are the
function's result, under every TABLES. -/
def Obligations.SourceFunctionsByCommandSequences : Prop :=
  ∀ (tb : Tables) (s : State), s.InvUnder tb → s.msgActive = false →
    (∀ k : Key, ∃ t, performAll tb ((keyScheduleCommands k).map encode) s = .next t ∧
      dataOf (t.responses.drop s.responses.length) = [(keySchedule tb k).1, (keySchedule tb k).2]) ∧
    (∀ (b : Block) (k : Key), ∃ t, performAll tb ((encryptBlockCommands b k).map encode) s = .next t ∧
      dataOf (t.responses.drop s.responses.length) = [encrypt tb b k]) ∧
    (∀ (b : Block) (k : Key), ∃ t, performAll tb ((decryptBlockCommands b k).map encode) s = .next t ∧
      dataOf (t.responses.drop s.responses.length) = [decrypt tb b k]) ∧
    (∀ (dir : Dir) (m : List Block) (k : Key), m.length ≤ 8191 →
      ∃ t, performAll tb ((ecbCommands dir m k).map encode) s = .next t ∧
        dataOf (t.responses.drop s.responses.length) = ecbBlocks tb k dir m) ∧
    (∀ (dir : Dir) (m : List Block) (k : Key) (iv : Block), m.length ≤ 8191 →
      ∃ t, performAll tb ((cbcCommands dir m k iv).map encode) s = .next t ∧
        dataOf (t.responses.drop s.responses.length) = modeBlocks tb k iv .cbc dir m)

/-- R197: ECB has no inter-block dependency: the result of a concatenation is the concatenation of the results, equal
blocks give equal results, and MSGBLK's ECB answer depends only on its operand, K1, K2 and the direction. -/
def Obligations.EcbBlocksAreIndependent : Prop :=
  (∀ (t : Tables) (k : Key) (dir : Dir) (a b : List Block),
    ecbBlocks t k dir (a ++ b) = ecbBlocks t k dir a ++ ecbBlocks t k dir b) ∧
  (∀ (t : Tables) (k : Key) (dir : Dir) (m : List Block) (i j : Nat), m[i]? = m[j]? →
    (ecbBlocks t k dir m)[i]? = (ecbBlocks t k dir m)[j]?) ∧
  (∀ (b : Block) (s s' t t' : State), s.msgActive = true → s'.msgActive = true → s.msgMode = .ecb → s'.msgMode = .ecb →
    s.msgDir = s'.msgDir → s.k1 = s'.k1 → s.k2 = s'.k2 → exec (.msgblk b) s = .next t → exec (.msgblk b) s' = .next t' →
    t.rspData = t'.rspData)

/-- R198 (c): CBC decryption undoes CBC encryption, for every TABLES that meets R105. -/
def Obligations.CbcDecryptUndoesCbcEncrypt : Prop :=
  ∀ (t : Tables) (k : Key) (iv : Block) (m : List Block), validTables t = true →
    cbcDecryptBlocks t k iv (cbcEncryptBlocks t k iv m) = m

/-- R198 (d): changing block i of the plaintext alone changes ciphertext blocks i..end and no block before. -/
def Obligations.CbcChangeReachesEveryLaterBlock : Prop :=
  ∀ (t : Tables) (k : Key) (iv : Block) (before after : List Block) (p q : Block), validTables t = true → p ≠ q →
    let out := cbcEncryptBlocks t k iv (before ++ p :: after)
    let out' := cbcEncryptBlocks t k iv (before ++ q :: after)
    out.take before.length = out'.take before.length ∧
      ∀ j, before.length ≤ j → j < (before ++ p :: after).length → out[j]? ≠ out'[j]?

/-- R199: a longer message as two sessions, one after the other, under every TABLES. In ECB the second session simply
continues; in CBC the host loads as its IV the last ciphertext block of the first (`nextIv`: the last block the core gave
when encrypting, the last block sent when decrypting). The data of both sessions' responses are the mode function of the
whole message. A message of more sessions is met by repeating this: the state after a session meets the hypotheses again. The
last three clauses are the splitting law of the mode functions. -/
def Obligations.LongMessageAsSeveralSessions : Prop :=
  (∀ (tb : Tables) (k : Key) (dir : Dir) (a b : List Block) (s : State), s.InvUnder tb → s.msgActive = false →
    s.key = some k → a.length ≤ 8191 → b.length ≤ 8191 →
    ∃ t u, performAll tb ((ecbSession dir a).map encode) s = .next t ∧
      dataOf (t.responses.drop s.responses.length) = ecbBlocks tb k dir a ∧
      performAll tb ((ecbSession dir b).map encode) t = .next u ∧
      dataOf (u.responses.drop s.responses.length) = ecbBlocks tb k dir (a ++ b) ∧
      u.InvUnder tb ∧ u.msgActive = false ∧ u.key = some k) ∧
  (∀ (tb : Tables) (k : Key) (iv : Block) (dir : Dir) (a b : List Block) (s : State), s.InvUnder tb →
    s.msgActive = false → s.key = some k → a.length ≤ 8191 → b.length ≤ 8191 →
    ∃ t u, performAll tb ((cbcSession dir a iv).map encode) s = .next t ∧
      dataOf (t.responses.drop s.responses.length) = modeBlocks tb k iv .cbc dir a ∧
      performAll tb ((cbcSession dir b (nextIv dir a (dataOf (t.responses.drop s.responses.length)) iv)).map encode) t =
        .next u ∧
      dataOf (u.responses.drop s.responses.length) = modeBlocks tb k iv .cbc dir (a ++ b) ∧
      u.InvUnder tb ∧ u.msgActive = false ∧ u.key = some k) ∧
  (∀ (t : Tables) (k : Key) (dir : Dir) (a b : List Block),
    ecbBlocks t k dir (a ++ b) = ecbBlocks t k dir a ++ ecbBlocks t k dir b) ∧
  (∀ (t : Tables) (k : Key) (iv : Block) (a b : List Block),
    cbcEncryptBlocks t k iv (a ++ b) =
      cbcEncryptBlocks t k iv a ++ cbcEncryptBlocks t k ((cbcEncryptBlocks t k iv a).getLastD iv) b) ∧
  (∀ (t : Tables) (k : Key) (iv : Block) (a b : List Block),
    cbcDecryptBlocks t k iv (a ++ b) = cbcDecryptBlocks t k iv a ++ cbcDecryptBlocks t k (a.getLastD iv) b)
end

