-- ==== Sys2Proof/Laws/BitSeq.lean ====
section
/-! SUPPORT. Sequences by their elements: what each builder of a sequence has at element i, and extensionality. -/

namespace Sys2Proof.Machine

theorem element_of_ge {w : Nat} (v : BitVec w) {i : Nat} (h : w ≤ i) : element v i = false := by
  simp [element, BitVec.getMsbD]; omega

theorem element_ofElements (w : Nat) (f : Nat → Bool) {i : Nat} (h : i < w) : element (ofElements w f) i = f i := by
  induction w generalizing f i with
  | zero => omega
  | succ w ih =>
    cases i with
    | zero => simp [element, ofElements]
    | succ i =>
      have := ih (fun j => f (j + 1)) (i := i) (by omega)
      simp only [element, BitVec.getMsbD] at this ⊢
      simp only [ofElements, BitVec.getLsbD_cons]
      have h1 : w + 1 - 1 - (i + 1) = w - 1 - i := by omega
      rw [h1, if_neg (by omega), ← this]
      simp

theorem eq_of_elements {w : Nat} {a b : BitVec w} (h : ∀ i < w, element a i = element b i) : a = b :=
  BitVec.eq_of_getMsbD_eq h

@[simp] theorem element_xorSeq {w : Nat} (a b : BitVec w) (i : Nat) :
    element (xorSeq a b) i = (element a i ^^ element b i) := by
  simp [element, xorSeq]

theorem element_append {m n : Nat} (a : BitVec m) (b : BitVec n) (i : Nat) :
    element (a ++ b) i = if i < m then element a i else element b (i - m) := by
  simp only [element, BitVec.getMsbD_append]
  split <;> rename_i h <;> split <;> first | rfl | omega

theorem element_left {w : Nat} (h : Nat) (v : BitVec w) (hw : h ≤ w) {i : Nat} (hi : i < h) :
    element (left h v) i = element v i := by
  simp only [element, left, BitVec.getMsbD, BitVec.getLsbD_extractLsb']
  have h1 : w - h + (h - 1 - i) = w - 1 - i := by omega
  rw [h1, decide_eq_true hi, decide_eq_true (show i < w by omega), decide_eq_true (show h - 1 - i < h by omega)]
  simp

theorem element_right {w : Nat} (h : Nat) (v : BitVec w) (hw : h ≤ w) {i : Nat} (hi : i < h) :
    element (right h v) i = element v (w - h + i) := by
  simp only [element, right, BitVec.getMsbD, BitVec.getLsbD_extractLsb']
  have h1 : w - 1 - (w - h + i) = 0 + (h - 1 - i) := by omega
  rw [h1, decide_eq_true hi, decide_eq_true (show w - h + i < w by omega), decide_eq_true (show h - 1 - i < h by omega)]
  simp

theorem left_append_right {m n : Nat} (a : BitVec m) (b : BitVec n) : left m (a ++ b) = a ∧ right n (a ++ b) = b := by
  constructor
  · refine eq_of_elements fun i hi => ?_
    rw [element_left m _ (by omega) hi, element_append, if_pos hi]
  · refine eq_of_elements fun i hi => ?_
    rw [element_right n _ (by omega) hi, element_append, if_neg (by omega)]
    congr 1; omega

end Sys2Proof.Machine
end

