-- ==== Sys2Proof/Laws/Encode.lean ====
section
/-! SUPPORT. The words of the commands bit by bit: the operand in the low bits, the fixed bits above it (30_encoding.md R72). -/

namespace Sys2Proof

theorem getElem_encode_ldkey (v : Key) (i : Nat) (h : i < 32) :
    (encode (.ldkey v))[i] = if i < 10 then v.getLsbD i else (262144#22).getLsbD (i - 10) :=
  (BitVec.getLsbD_eq_getElem h).symm.trans BitVec.getLsbD_append

theorem getElem_encode_encb (v : Block) (i : Nat) (h : i < 32) :
    (encode (.encb v))[i] = if i < 8 then v.getLsbD i else (2097152#24).getLsbD (i - 8) :=
  (BitVec.getLsbD_eq_getElem h).symm.trans BitVec.getLsbD_append

theorem getElem_encode_decb (v : Block) (i : Nat) (h : i < 32) :
    (encode (.decb v))[i] = if i < 8 then v.getLsbD i else (3145728#24).getLsbD (i - 8) :=
  (BitVec.getLsbD_eq_getElem h).symm.trans BitVec.getLsbD_append

theorem getElem_encode_ldiv (v : Block) (i : Nat) (h : i < 32) :
    (encode (.ldiv v))[i] = if i < 8 then v.getLsbD i else (4194304#24).getLsbD (i - 8) :=
  (BitVec.getLsbD_eq_getElem h).symm.trans BitVec.getLsbD_append

theorem getElem_encode_msgblk (v : Block) (i : Nat) (h : i < 32) :
    (encode (.msgblk v))[i] = if i < 8 then v.getLsbD i else (6291456#24).getLsbD (i - 8) :=
  (BitVec.getLsbD_eq_getElem h).symm.trans BitVec.getLsbD_append

/-- The fixed bits and the two flag bits of MSGBEGIN, above LEN. -/
def msgbeginHigh (mode : Mode) (dir : Dir) : BitVec 16 :=
  0x5#4 ++ 0#10 ++ BitVec.ofBool dir.bit ++ BitVec.ofBool mode.bit

theorem getElem_encode_msgbegin (mode : Mode) (dir : Dir) (v : BitVec 16) (i : Nat) (h : i < 32) :
    (encode (.msgbegin mode dir v))[i] =
      if i < 16 then v.getLsbD i else (msgbeginHigh mode dir).getLsbD (i - 16) :=
  (BitVec.getLsbD_eq_getElem h).symm.trans BitVec.getLsbD_append

end Sys2Proof
end

