-- ==== Sys2Proof/Laws/State.lean ====
section
/-! SUPPORT. One lemma per field per update of the state, each true by unfolding the update once. -/

namespace Sys2Proof.Machine

@[simp] theorem respond_key (e : ErrCode) (d : Bool) (x : Option Block) (s : State) : (respond e d x s).key = s.key := rfl
@[simp] theorem respond_k1 (e : ErrCode) (d : Bool) (x : Option Block) (s : State) : (respond e d x s).k1 = s.k1 := rfl
@[simp] theorem respond_k2 (e : ErrCode) (d : Bool) (x : Option Block) (s : State) : (respond e d x s).k2 = s.k2 := rfl
@[simp] theorem respond_keyValid (e : ErrCode) (d : Bool) (x : Option Block) (s : State) : (respond e d x s).keyValid = s.keyValid := rfl
@[simp] theorem respond_iv (e : ErrCode) (d : Bool) (x : Option Block) (s : State) : (respond e d x s).iv = s.iv := rfl
@[simp] theorem respond_ivValid (e : ErrCode) (d : Bool) (x : Option Block) (s : State) : (respond e d x s).ivValid = s.ivValid := rfl
@[simp] theorem respond_chain (e : ErrCode) (d : Bool) (x : Option Block) (s : State) : (respond e d x s).chain = s.chain := rfl
@[simp] theorem respond_msgActive (e : ErrCode) (d : Bool) (x : Option Block) (s : State) : (respond e d x s).msgActive = s.msgActive := rfl
@[simp] theorem respond_msgMode (e : ErrCode) (d : Bool) (x : Option Block) (s : State) : (respond e d x s).msgMode = s.msgMode := rfl
@[simp] theorem respond_msgDir (e : ErrCode) (d : Bool) (x : Option Block) (s : State) : (respond e d x s).msgDir = s.msgDir := rfl
@[simp] theorem respond_blkLeft (e : ErrCode) (d : Bool) (x : Option Block) (s : State) : (respond e d x s).blkLeft = s.blkLeft := rfl
@[simp] theorem respond_lastErr (e : ErrCode) (d : Bool) (x : Option Block) (s : State) : (respond e d x s).lastErr = errBits e := rfl
@[simp] theorem respond_stickyErr (e : ErrCode) (d : Bool) (x : Option Block) (s : State) : (respond e d x s).stickyErr = s.stickyErr := rfl
@[simp] theorem respond_rspDvalid (e : ErrCode) (d : Bool) (x : Option Block) (s : State) : (respond e d x s).rspDvalid = d := rfl
@[simp] theorem respond_rspData (e : ErrCode) (d : Bool) (x : Option Block) (s : State) : (respond e d x s).rspData = x := rfl
@[simp] theorem respond_rspValid (e : ErrCode) (d : Bool) (x : Option Block) (s : State) : (respond e d x s).rspValid = true := rfl
@[simp] theorem respond_host (e : ErrCode) (d : Bool) (x : Option Block) (s : State) : (respond e d x s).host = s.host := rfl
@[simp] theorem respond_responses (e : ErrCode) (d : Bool) (x : Option Block) (s : State) : (respond e d x s).responses = s.responses ++ [{ err := errBits e, dvalid := d, data := x }] := rfl
@[simp] theorem respond_freeCount (e : ErrCode) (d : Bool) (x : Option Block) (s : State) : (respond e d x s).freeCount = s.freeCount + 1 := rfl

@[simp] theorem raiseError_key (e : ErrCode) (s : State) : (raiseError e s).key = s.key := rfl
@[simp] theorem raiseError_k1 (e : ErrCode) (s : State) : (raiseError e s).k1 = s.k1 := rfl
@[simp] theorem raiseError_k2 (e : ErrCode) (s : State) : (raiseError e s).k2 = s.k2 := rfl
@[simp] theorem raiseError_keyValid (e : ErrCode) (s : State) : (raiseError e s).keyValid = s.keyValid := rfl
@[simp] theorem raiseError_iv (e : ErrCode) (s : State) : (raiseError e s).iv = s.iv := rfl
@[simp] theorem raiseError_ivValid (e : ErrCode) (s : State) : (raiseError e s).ivValid = s.ivValid := rfl
@[simp] theorem raiseError_chain (e : ErrCode) (s : State) : (raiseError e s).chain = s.chain := rfl
@[simp] theorem raiseError_msgActive (e : ErrCode) (s : State) : (raiseError e s).msgActive = s.msgActive := rfl
@[simp] theorem raiseError_msgMode (e : ErrCode) (s : State) : (raiseError e s).msgMode = s.msgMode := rfl
@[simp] theorem raiseError_msgDir (e : ErrCode) (s : State) : (raiseError e s).msgDir = s.msgDir := rfl
@[simp] theorem raiseError_blkLeft (e : ErrCode) (s : State) : (raiseError e s).blkLeft = s.blkLeft := rfl
@[simp] theorem raiseError_lastErr (e : ErrCode) (s : State) : (raiseError e s).lastErr = errBits e := rfl
@[simp] theorem raiseError_stickyErr (e : ErrCode) (s : State) : (raiseError e s).stickyErr = true := rfl
@[simp] theorem raiseError_rspDvalid (e : ErrCode) (s : State) : (raiseError e s).rspDvalid = false := rfl
@[simp] theorem raiseError_rspData (e : ErrCode) (s : State) : (raiseError e s).rspData = none := rfl
@[simp] theorem raiseError_rspValid (e : ErrCode) (s : State) : (raiseError e s).rspValid = true := rfl
@[simp] theorem raiseError_host (e : ErrCode) (s : State) : (raiseError e s).host = s.host := rfl
@[simp] theorem raiseError_responses (e : ErrCode) (s : State) : (raiseError e s).responses = s.responses ++ [{ err := errBits e, dvalid := false, data := none }] := rfl
@[simp] theorem raiseError_freeCount (e : ErrCode) (s : State) : (raiseError e s).freeCount = s.freeCount + 1 := rfl

@[simp] theorem loadKey_key (t : Tables) (k : Key) (s : State) : (loadKey t k s).key = some k := rfl
@[simp] theorem loadKey_k1 (t : Tables) (k : Key) (s : State) : (loadKey t k s).k1 = some (keySchedule t k).1 := rfl
@[simp] theorem loadKey_k2 (t : Tables) (k : Key) (s : State) : (loadKey t k s).k2 = some (keySchedule t k).2 := rfl
@[simp] theorem loadKey_keyValid (t : Tables) (k : Key) (s : State) : (loadKey t k s).keyValid = true := rfl
@[simp] theorem loadKey_iv (t : Tables) (k : Key) (s : State) : (loadKey t k s).iv = s.iv := rfl
@[simp] theorem loadKey_ivValid (t : Tables) (k : Key) (s : State) : (loadKey t k s).ivValid = s.ivValid := rfl
@[simp] theorem loadKey_chain (t : Tables) (k : Key) (s : State) : (loadKey t k s).chain = s.chain := rfl
@[simp] theorem loadKey_msgActive (t : Tables) (k : Key) (s : State) : (loadKey t k s).msgActive = s.msgActive := rfl
@[simp] theorem loadKey_msgMode (t : Tables) (k : Key) (s : State) : (loadKey t k s).msgMode = s.msgMode := rfl
@[simp] theorem loadKey_msgDir (t : Tables) (k : Key) (s : State) : (loadKey t k s).msgDir = s.msgDir := rfl
@[simp] theorem loadKey_blkLeft (t : Tables) (k : Key) (s : State) : (loadKey t k s).blkLeft = s.blkLeft := rfl
@[simp] theorem loadKey_lastErr (t : Tables) (k : Key) (s : State) : (loadKey t k s).lastErr = s.lastErr := rfl
@[simp] theorem loadKey_stickyErr (t : Tables) (k : Key) (s : State) : (loadKey t k s).stickyErr = s.stickyErr := rfl
@[simp] theorem loadKey_rspDvalid (t : Tables) (k : Key) (s : State) : (loadKey t k s).rspDvalid = s.rspDvalid := rfl
@[simp] theorem loadKey_rspData (t : Tables) (k : Key) (s : State) : (loadKey t k s).rspData = s.rspData := rfl
@[simp] theorem loadKey_rspValid (t : Tables) (k : Key) (s : State) : (loadKey t k s).rspValid = s.rspValid := rfl
@[simp] theorem loadKey_host (t : Tables) (k : Key) (s : State) : (loadKey t k s).host = s.host := rfl
@[simp] theorem loadKey_responses (t : Tables) (k : Key) (s : State) : (loadKey t k s).responses = s.responses := rfl
@[simp] theorem loadKey_freeCount (t : Tables) (k : Key) (s : State) : (loadKey t k s).freeCount = s.freeCount := rfl

@[simp] theorem loadIv_key (v : Block) (s : State) : (loadIv v s).key = s.key := rfl
@[simp] theorem loadIv_k1 (v : Block) (s : State) : (loadIv v s).k1 = s.k1 := rfl
@[simp] theorem loadIv_k2 (v : Block) (s : State) : (loadIv v s).k2 = s.k2 := rfl
@[simp] theorem loadIv_keyValid (v : Block) (s : State) : (loadIv v s).keyValid = s.keyValid := rfl
@[simp] theorem loadIv_iv (v : Block) (s : State) : (loadIv v s).iv = some v := rfl
@[simp] theorem loadIv_ivValid (v : Block) (s : State) : (loadIv v s).ivValid = true := rfl
@[simp] theorem loadIv_chain (v : Block) (s : State) : (loadIv v s).chain = s.chain := rfl
@[simp] theorem loadIv_msgActive (v : Block) (s : State) : (loadIv v s).msgActive = s.msgActive := rfl
@[simp] theorem loadIv_msgMode (v : Block) (s : State) : (loadIv v s).msgMode = s.msgMode := rfl
@[simp] theorem loadIv_msgDir (v : Block) (s : State) : (loadIv v s).msgDir = s.msgDir := rfl
@[simp] theorem loadIv_blkLeft (v : Block) (s : State) : (loadIv v s).blkLeft = s.blkLeft := rfl
@[simp] theorem loadIv_lastErr (v : Block) (s : State) : (loadIv v s).lastErr = s.lastErr := rfl
@[simp] theorem loadIv_stickyErr (v : Block) (s : State) : (loadIv v s).stickyErr = s.stickyErr := rfl
@[simp] theorem loadIv_rspDvalid (v : Block) (s : State) : (loadIv v s).rspDvalid = s.rspDvalid := rfl
@[simp] theorem loadIv_rspData (v : Block) (s : State) : (loadIv v s).rspData = s.rspData := rfl
@[simp] theorem loadIv_rspValid (v : Block) (s : State) : (loadIv v s).rspValid = s.rspValid := rfl
@[simp] theorem loadIv_host (v : Block) (s : State) : (loadIv v s).host = s.host := rfl
@[simp] theorem loadIv_responses (v : Block) (s : State) : (loadIv v s).responses = s.responses := rfl
@[simp] theorem loadIv_freeCount (v : Block) (s : State) : (loadIv v s).freeCount = s.freeCount := rfl

@[simp] theorem setChain_key (c : Block) (s : State) : (setChain c s).key = s.key := rfl
@[simp] theorem setChain_k1 (c : Block) (s : State) : (setChain c s).k1 = s.k1 := rfl
@[simp] theorem setChain_k2 (c : Block) (s : State) : (setChain c s).k2 = s.k2 := rfl
@[simp] theorem setChain_keyValid (c : Block) (s : State) : (setChain c s).keyValid = s.keyValid := rfl
@[simp] theorem setChain_iv (c : Block) (s : State) : (setChain c s).iv = s.iv := rfl
@[simp] theorem setChain_ivValid (c : Block) (s : State) : (setChain c s).ivValid = s.ivValid := rfl
@[simp] theorem setChain_chain (c : Block) (s : State) : (setChain c s).chain = some c := rfl
@[simp] theorem setChain_msgActive (c : Block) (s : State) : (setChain c s).msgActive = s.msgActive := rfl
@[simp] theorem setChain_msgMode (c : Block) (s : State) : (setChain c s).msgMode = s.msgMode := rfl
@[simp] theorem setChain_msgDir (c : Block) (s : State) : (setChain c s).msgDir = s.msgDir := rfl
@[simp] theorem setChain_blkLeft (c : Block) (s : State) : (setChain c s).blkLeft = s.blkLeft := rfl
@[simp] theorem setChain_lastErr (c : Block) (s : State) : (setChain c s).lastErr = s.lastErr := rfl
@[simp] theorem setChain_stickyErr (c : Block) (s : State) : (setChain c s).stickyErr = s.stickyErr := rfl
@[simp] theorem setChain_rspDvalid (c : Block) (s : State) : (setChain c s).rspDvalid = s.rspDvalid := rfl
@[simp] theorem setChain_rspData (c : Block) (s : State) : (setChain c s).rspData = s.rspData := rfl
@[simp] theorem setChain_rspValid (c : Block) (s : State) : (setChain c s).rspValid = s.rspValid := rfl
@[simp] theorem setChain_host (c : Block) (s : State) : (setChain c s).host = s.host := rfl
@[simp] theorem setChain_responses (c : Block) (s : State) : (setChain c s).responses = s.responses := rfl
@[simp] theorem setChain_freeCount (c : Block) (s : State) : (setChain c s).freeCount = s.freeCount := rfl

@[simp] theorem beginSession_key (m : Mode) (r : Dir) (n : BitVec 16) (s : State) : (beginSession m r n s).key = s.key := rfl
@[simp] theorem beginSession_k1 (m : Mode) (r : Dir) (n : BitVec 16) (s : State) : (beginSession m r n s).k1 = s.k1 := rfl
@[simp] theorem beginSession_k2 (m : Mode) (r : Dir) (n : BitVec 16) (s : State) : (beginSession m r n s).k2 = s.k2 := rfl
@[simp] theorem beginSession_keyValid (m : Mode) (r : Dir) (n : BitVec 16) (s : State) : (beginSession m r n s).keyValid = s.keyValid := rfl
@[simp] theorem beginSession_iv (m : Mode) (r : Dir) (n : BitVec 16) (s : State) : (beginSession m r n s).iv = s.iv := rfl
@[simp] theorem beginSession_ivValid (m : Mode) (r : Dir) (n : BitVec 16) (s : State) : (beginSession m r n s).ivValid = s.ivValid := rfl
@[simp] theorem beginSession_chain (m : Mode) (r : Dir) (n : BitVec 16) (s : State) : (beginSession m r n s).chain = s.chain := rfl
@[simp] theorem beginSession_msgActive (m : Mode) (r : Dir) (n : BitVec 16) (s : State) : (beginSession m r n s).msgActive = decide (n ≠ 0) := rfl
@[simp] theorem beginSession_msgMode (m : Mode) (r : Dir) (n : BitVec 16) (s : State) : (beginSession m r n s).msgMode = m := rfl
@[simp] theorem beginSession_msgDir (m : Mode) (r : Dir) (n : BitVec 16) (s : State) : (beginSession m r n s).msgDir = r := rfl
@[simp] theorem beginSession_blkLeft (m : Mode) (r : Dir) (n : BitVec 16) (s : State) : (beginSession m r n s).blkLeft = BitVec.ofNat 13 (n.toNat / 8) := rfl
@[simp] theorem beginSession_lastErr (m : Mode) (r : Dir) (n : BitVec 16) (s : State) : (beginSession m r n s).lastErr = s.lastErr := rfl
@[simp] theorem beginSession_stickyErr (m : Mode) (r : Dir) (n : BitVec 16) (s : State) : (beginSession m r n s).stickyErr = s.stickyErr := rfl
@[simp] theorem beginSession_rspDvalid (m : Mode) (r : Dir) (n : BitVec 16) (s : State) : (beginSession m r n s).rspDvalid = s.rspDvalid := rfl
@[simp] theorem beginSession_rspData (m : Mode) (r : Dir) (n : BitVec 16) (s : State) : (beginSession m r n s).rspData = s.rspData := rfl
@[simp] theorem beginSession_rspValid (m : Mode) (r : Dir) (n : BitVec 16) (s : State) : (beginSession m r n s).rspValid = s.rspValid := rfl
@[simp] theorem beginSession_host (m : Mode) (r : Dir) (n : BitVec 16) (s : State) : (beginSession m r n s).host = s.host := rfl
@[simp] theorem beginSession_responses (m : Mode) (r : Dir) (n : BitVec 16) (s : State) : (beginSession m r n s).responses = s.responses := rfl
@[simp] theorem beginSession_freeCount (m : Mode) (r : Dir) (n : BitVec 16) (s : State) : (beginSession m r n s).freeCount = s.freeCount := rfl

@[simp] theorem countBlock_key (s : State) : (countBlock s).key = s.key := rfl
@[simp] theorem countBlock_k1 (s : State) : (countBlock s).k1 = s.k1 := rfl
@[simp] theorem countBlock_k2 (s : State) : (countBlock s).k2 = s.k2 := rfl
@[simp] theorem countBlock_keyValid (s : State) : (countBlock s).keyValid = s.keyValid := rfl
@[simp] theorem countBlock_iv (s : State) : (countBlock s).iv = s.iv := rfl
@[simp] theorem countBlock_ivValid (s : State) : (countBlock s).ivValid = s.ivValid := rfl
@[simp] theorem countBlock_chain (s : State) : (countBlock s).chain = s.chain := rfl
@[simp] theorem countBlock_msgActive (s : State) : (countBlock s).msgActive = if s.blkLeft - 1 = 0 then false else s.msgActive := rfl
@[simp] theorem countBlock_msgMode (s : State) : (countBlock s).msgMode = s.msgMode := rfl
@[simp] theorem countBlock_msgDir (s : State) : (countBlock s).msgDir = s.msgDir := rfl
@[simp] theorem countBlock_blkLeft (s : State) : (countBlock s).blkLeft = s.blkLeft - 1 := rfl
@[simp] theorem countBlock_lastErr (s : State) : (countBlock s).lastErr = s.lastErr := rfl
@[simp] theorem countBlock_stickyErr (s : State) : (countBlock s).stickyErr = s.stickyErr := rfl
@[simp] theorem countBlock_rspDvalid (s : State) : (countBlock s).rspDvalid = s.rspDvalid := rfl
@[simp] theorem countBlock_rspData (s : State) : (countBlock s).rspData = s.rspData := rfl
@[simp] theorem countBlock_rspValid (s : State) : (countBlock s).rspValid = s.rspValid := rfl
@[simp] theorem countBlock_host (s : State) : (countBlock s).host = s.host := rfl
@[simp] theorem countBlock_responses (s : State) : (countBlock s).responses = s.responses := rfl
@[simp] theorem countBlock_freeCount (s : State) : (countBlock s).freeCount = s.freeCount := rfl

@[simp] theorem endSession_key (s : State) : (endSession s).key = s.key := rfl
@[simp] theorem endSession_k1 (s : State) : (endSession s).k1 = s.k1 := rfl
@[simp] theorem endSession_k2 (s : State) : (endSession s).k2 = s.k2 := rfl
@[simp] theorem endSession_keyValid (s : State) : (endSession s).keyValid = s.keyValid := rfl
@[simp] theorem endSession_iv (s : State) : (endSession s).iv = s.iv := rfl
@[simp] theorem endSession_ivValid (s : State) : (endSession s).ivValid = s.ivValid := rfl
@[simp] theorem endSession_chain (s : State) : (endSession s).chain = s.chain := rfl
@[simp] theorem endSession_msgActive (s : State) : (endSession s).msgActive = false := rfl
@[simp] theorem endSession_msgMode (s : State) : (endSession s).msgMode = s.msgMode := rfl
@[simp] theorem endSession_msgDir (s : State) : (endSession s).msgDir = s.msgDir := rfl
@[simp] theorem endSession_blkLeft (s : State) : (endSession s).blkLeft = 0 := rfl
@[simp] theorem endSession_lastErr (s : State) : (endSession s).lastErr = s.lastErr := rfl
@[simp] theorem endSession_stickyErr (s : State) : (endSession s).stickyErr = s.stickyErr := rfl
@[simp] theorem endSession_rspDvalid (s : State) : (endSession s).rspDvalid = s.rspDvalid := rfl
@[simp] theorem endSession_rspData (s : State) : (endSession s).rspData = s.rspData := rfl
@[simp] theorem endSession_rspValid (s : State) : (endSession s).rspValid = s.rspValid := rfl
@[simp] theorem endSession_host (s : State) : (endSession s).host = s.host := rfl
@[simp] theorem endSession_responses (s : State) : (endSession s).responses = s.responses := rfl
@[simp] theorem endSession_freeCount (s : State) : (endSession s).freeCount = s.freeCount := rfl

@[simp] theorem idle_key (s : State) : (idle s).key = s.key := rfl
@[simp] theorem idle_k1 (s : State) : (idle s).k1 = s.k1 := rfl
@[simp] theorem idle_k2 (s : State) : (idle s).k2 = s.k2 := rfl
@[simp] theorem idle_keyValid (s : State) : (idle s).keyValid = s.keyValid := rfl
@[simp] theorem idle_iv (s : State) : (idle s).iv = s.iv := rfl
@[simp] theorem idle_ivValid (s : State) : (idle s).ivValid = s.ivValid := rfl
@[simp] theorem idle_chain (s : State) : (idle s).chain = s.chain := rfl
@[simp] theorem idle_msgActive (s : State) : (idle s).msgActive = s.msgActive := rfl
@[simp] theorem idle_msgMode (s : State) : (idle s).msgMode = s.msgMode := rfl
@[simp] theorem idle_msgDir (s : State) : (idle s).msgDir = s.msgDir := rfl
@[simp] theorem idle_blkLeft (s : State) : (idle s).blkLeft = s.blkLeft := rfl
@[simp] theorem idle_lastErr (s : State) : (idle s).lastErr = s.lastErr := rfl
@[simp] theorem idle_stickyErr (s : State) : (idle s).stickyErr = s.stickyErr := rfl
@[simp] theorem idle_rspDvalid (s : State) : (idle s).rspDvalid = s.rspDvalid := rfl
@[simp] theorem idle_rspData (s : State) : (idle s).rspData = s.rspData := rfl
@[simp] theorem idle_rspValid (s : State) : (idle s).rspValid = false := rfl
@[simp] theorem idle_host (s : State) : (idle s).host = s.host := rfl
@[simp] theorem idle_responses (s : State) : (idle s).responses = s.responses := rfl
@[simp] theorem idle_freeCount (s : State) : (idle s).freeCount = s.freeCount := rfl

@[simp] theorem takeEvent_key (l : List HostEvent) (s : State) : (takeEvent l s).key = s.key := rfl
@[simp] theorem takeEvent_k1 (l : List HostEvent) (s : State) : (takeEvent l s).k1 = s.k1 := rfl
@[simp] theorem takeEvent_k2 (l : List HostEvent) (s : State) : (takeEvent l s).k2 = s.k2 := rfl
@[simp] theorem takeEvent_keyValid (l : List HostEvent) (s : State) : (takeEvent l s).keyValid = s.keyValid := rfl
@[simp] theorem takeEvent_iv (l : List HostEvent) (s : State) : (takeEvent l s).iv = s.iv := rfl
@[simp] theorem takeEvent_ivValid (l : List HostEvent) (s : State) : (takeEvent l s).ivValid = s.ivValid := rfl
@[simp] theorem takeEvent_chain (l : List HostEvent) (s : State) : (takeEvent l s).chain = s.chain := rfl
@[simp] theorem takeEvent_msgActive (l : List HostEvent) (s : State) : (takeEvent l s).msgActive = s.msgActive := rfl
@[simp] theorem takeEvent_msgMode (l : List HostEvent) (s : State) : (takeEvent l s).msgMode = s.msgMode := rfl
@[simp] theorem takeEvent_msgDir (l : List HostEvent) (s : State) : (takeEvent l s).msgDir = s.msgDir := rfl
@[simp] theorem takeEvent_blkLeft (l : List HostEvent) (s : State) : (takeEvent l s).blkLeft = s.blkLeft := rfl
@[simp] theorem takeEvent_lastErr (l : List HostEvent) (s : State) : (takeEvent l s).lastErr = s.lastErr := rfl
@[simp] theorem takeEvent_stickyErr (l : List HostEvent) (s : State) : (takeEvent l s).stickyErr = s.stickyErr := rfl
@[simp] theorem takeEvent_rspDvalid (l : List HostEvent) (s : State) : (takeEvent l s).rspDvalid = s.rspDvalid := rfl
@[simp] theorem takeEvent_rspData (l : List HostEvent) (s : State) : (takeEvent l s).rspData = s.rspData := rfl
@[simp] theorem takeEvent_rspValid (l : List HostEvent) (s : State) : (takeEvent l s).rspValid = s.rspValid := rfl
@[simp] theorem takeEvent_host (l : List HostEvent) (s : State) : (takeEvent l s).host = l := rfl
@[simp] theorem takeEvent_responses (l : List HostEvent) (s : State) : (takeEvent l s).responses = s.responses := rfl
@[simp] theorem takeEvent_freeCount (l : List HostEvent) (s : State) : (takeEvent l s).freeCount = s.freeCount := rfl

@[simp] theorem toReset_key (s : State) : (toReset s).key = none := rfl
@[simp] theorem toReset_k1 (s : State) : (toReset s).k1 = none := rfl
@[simp] theorem toReset_k2 (s : State) : (toReset s).k2 = none := rfl
@[simp] theorem toReset_keyValid (s : State) : (toReset s).keyValid = false := rfl
@[simp] theorem toReset_iv (s : State) : (toReset s).iv = none := rfl
@[simp] theorem toReset_ivValid (s : State) : (toReset s).ivValid = false := rfl
@[simp] theorem toReset_chain (s : State) : (toReset s).chain = none := rfl
@[simp] theorem toReset_msgActive (s : State) : (toReset s).msgActive = false := rfl
@[simp] theorem toReset_msgMode (s : State) : (toReset s).msgMode = .ecb := rfl
@[simp] theorem toReset_msgDir (s : State) : (toReset s).msgDir = .enc := rfl
@[simp] theorem toReset_blkLeft (s : State) : (toReset s).blkLeft = 0 := rfl
@[simp] theorem toReset_lastErr (s : State) : (toReset s).lastErr = 0 := rfl
@[simp] theorem toReset_stickyErr (s : State) : (toReset s).stickyErr = false := rfl
@[simp] theorem toReset_rspDvalid (s : State) : (toReset s).rspDvalid = false := rfl
@[simp] theorem toReset_rspData (s : State) : (toReset s).rspData = none := rfl
@[simp] theorem toReset_rspValid (s : State) : (toReset s).rspValid = false := rfl
@[simp] theorem toReset_host (s : State) : (toReset s).host = s.host := rfl
@[simp] theorem toReset_responses (s : State) : (toReset s).responses = s.responses := rfl
@[simp] theorem toReset_freeCount (s : State) : (toReset s).freeCount = s.freeCount + 1 := rfl

end Sys2Proof.Machine
end

