-- ==== Sys2Proof/Laws/Ops.lean ====
section
/-! SUPPORT. What each shared operation can do, said once. -/

namespace Sys2Proof.Machine

@[simp] theorem readReg_some (r : DataReg) (v : Block) (f : Block → Result) : readReg r (some v) f = f v := rfl

@[simp] theorem readReg_none (r : DataReg) (f : Block → Result) : readReg r none f = .fault (.readOfNone r) := rfl

/-- A read goes on exactly with the value the register holds. -/
theorem readReg_next {r : DataReg} {x : Option Block} {f : Block → Result} {t : State} :
    readReg r x f = .next t ↔ ∃ v, x = some v ∧ f v = .next t := by
  cases x <;> simp [readReg]

/-- The subkeys are both read, K1 first. -/
theorem withSubkeys_next {s t : State} {f : Block → Block → Result} :
    withSubkeys s f = .next t ↔ ∃ a b, s.k1 = some a ∧ s.k2 = some b ∧ f a b = .next t := by
  simp only [withSubkeys, readReg_next]
  constructor
  · rintro ⟨a, ha, b, hb, h⟩
    exact ⟨a, b, ha, hb, h⟩
  · rintro ⟨a, b, ha, hb, h⟩
    exact ⟨a, ha, b, hb, h⟩

theorem withSubkeys_some {s : State} {a b : Block} (ha : s.k1 = some a) (hb : s.k2 = some b)
    (f : Block → Block → Result) : withSubkeys s f = f a b := by
  simp [withSubkeys, ha, hb]

@[simp] theorem raised_next {e : ErrCode} {s t : State} : raised e s = .next t ↔ raiseError e s = t := by
  simp [raised]

@[simp] theorem done_next {s t : State} : done s = .next t ↔ respond .ok false none s = t := by
  simp [done]

@[simp] theorem returned_next {d : Block} {s t : State} : returned d s = .next t ↔ respond .ok true (some d) s = t := by
  simp [returned]

end Sys2Proof.Machine
end

