-- ==== Sys2Proof/Laws/Exec.lean ====
section
/-! SUPPORT. One inversion per command: if it answers a next state, then one of these cases holds. Those of the commands
that use TABLES hold under every TABLES; `exec` is the case of this machine's TABLES (`exec_eq`). -/

namespace Sys2Proof.Machine

/-- The meanings that exec dispatches to are those under this machine's TABLES. -/
theorem exec_eq : exec = execUnder tables := by
  funext i s
  cases i <;> rfl

theorem ldkeyUnder_cases {tb : Tables} {k : Key} {s t : State} (h : ldkeyUnder tb k s = .next t) :
    (s.msgActive = true ∧ t = raiseError .msgBusy s) ∨
      (s.msgActive = false ∧ t = respond .ok false none (loadKey tb k s)) := by
  unfold ldkeyUnder at h
  split at h
  · exact .inl ⟨‹_›, (raised_next.mp h).symm⟩
  · exact .inr ⟨Bool.eq_false_iff.mpr ‹_›, (done_next.mp h).symm⟩

theorem execRdk1_cases {s t : State} (h : execRdk1 s = .next t) :
    (s.keyValid = false ∧ t = raiseError .noKey s) ∨
      (s.keyValid = true ∧ ∃ a, s.k1 = some a ∧ t = respond .ok true (some a) s) := by
  unfold execRdk1 at h
  split at h
  · obtain ⟨a, ha, h⟩ := readReg_next.mp h
    exact .inr ⟨‹_›, a, ha, (returned_next.mp h).symm⟩
  · exact .inl ⟨Bool.eq_false_iff.mpr ‹_›, (raised_next.mp h).symm⟩

theorem execRdk2_cases {s t : State} (h : execRdk2 s = .next t) :
    (s.keyValid = false ∧ t = raiseError .noKey s) ∨
      (s.keyValid = true ∧ ∃ a, s.k2 = some a ∧ t = respond .ok true (some a) s) := by
  unfold execRdk2 at h
  split at h
  · obtain ⟨a, ha, h⟩ := readReg_next.mp h
    exact .inr ⟨‹_›, a, ha, (returned_next.mp h).symm⟩
  · exact .inl ⟨Bool.eq_false_iff.mpr ‹_›, (raised_next.mp h).symm⟩

theorem encbUnder_cases {tb : Tables} {b : Block} {s t : State} (h : encbUnder tb b s = .next t) :
    (s.keyValid = false ∧ t = raiseError .noKey s) ∨
      (s.keyValid = true ∧ ∃ a c, s.k1 = some a ∧ s.k2 = some c ∧
        t = respond .ok true (some (encSub tb b a c)) s) := by
  unfold encbUnder at h
  split at h
  · obtain ⟨a, c, ha, hc, h⟩ := withSubkeys_next.mp h
    exact .inr ⟨‹_›, a, c, ha, hc, (returned_next.mp h).symm⟩
  · exact .inl ⟨Bool.eq_false_iff.mpr ‹_›, (raised_next.mp h).symm⟩

theorem decbUnder_cases {tb : Tables} {b : Block} {s t : State} (h : decbUnder tb b s = .next t) :
    (s.keyValid = false ∧ t = raiseError .noKey s) ∨
      (s.keyValid = true ∧ ∃ a c, s.k1 = some a ∧ s.k2 = some c ∧
        t = respond .ok true (some (decSub tb b a c)) s) := by
  unfold decbUnder at h
  split at h
  · obtain ⟨a, c, ha, hc, h⟩ := withSubkeys_next.mp h
    exact .inr ⟨‹_›, a, c, ha, hc, (returned_next.mp h).symm⟩
  · exact .inl ⟨Bool.eq_false_iff.mpr ‹_›, (raised_next.mp h).symm⟩

theorem execMsgbegin_cases {m : Mode} {r : Dir} {n : BitVec 16} {s t : State} (h : execMsgbegin m r n s = .next t) :
    (s.msgActive = true ∧ t = raiseError .msgBusy s) ∨
    (s.msgActive = false ∧ s.keyValid = false ∧ t = raiseError .noKey s) ∨
    (s.msgActive = false ∧ s.keyValid = true ∧ m = .cbc ∧ s.ivValid = false ∧ t = raiseError .noIv s) ∨
    (s.msgActive = false ∧ s.keyValid = true ∧ ¬(m = .cbc ∧ s.ivValid = false) ∧ n.toNat % 8 ≠ 0 ∧
      t = raiseError .msgNotAligned s) ∨
    (s.msgActive = false ∧ s.keyValid = true ∧ n.toNat % 8 = 0 ∧ m = .ecb ∧
      t = respond .ok false none (beginSession .ecb r n s)) ∨
    (s.msgActive = false ∧ s.keyValid = true ∧ n.toNat % 8 = 0 ∧ m = .cbc ∧ s.ivValid = true ∧
      ∃ v, s.iv = some v ∧ t = respond .ok false none (setChain v (beginSession .cbc r n s))) := by
  unfold execMsgbegin at h
  split at h
  · exact .inl ⟨‹_›, (raised_next.mp h).symm⟩
  have ha : s.msgActive = false := Bool.eq_false_iff.mpr ‹_›
  split at h
  · exact .inr (.inl ⟨ha, ‹_›, (raised_next.mp h).symm⟩)
  have hk : s.keyValid = true := by simpa using ‹¬s.keyValid = false›
  split at h
  · rename_i hi
    exact .inr (.inr (.inl ⟨ha, hk, hi.1, hi.2, (raised_next.mp h).symm⟩))
  split at h
  · exact .inr (.inr (.inr (.inl ⟨ha, hk, ‹_›, ‹_›, (raised_next.mp h).symm⟩)))
  rename_i hi hn
  have hn : n.toNat % 8 = 0 := by omega
  cases m with
  | ecb => exact .inr (.inr (.inr (.inr (.inl ⟨ha, hk, hn, rfl, (done_next.mp h).symm⟩))))
  | cbc =>
    obtain ⟨v, hv, h⟩ := readReg_next.mp h
    exact .inr (.inr (.inr (.inr (.inr ⟨ha, hk, hn, rfl, by simpa using hi, v, hv, (done_next.mp h).symm⟩))))

theorem msgblkUnder_cases {tb : Tables} {b : Block} {s t : State} (h : msgblkUnder tb b s = .next t) :
    (s.msgActive = false ∧ t = raiseError .noMessage s) ∨
    (s.msgActive = true ∧ ∃ k1 k2, s.k1 = some k1 ∧ s.k2 = some k2 ∧
      ((s.msgMode = .ecb ∧ s.msgDir = .enc ∧ t = respond .ok true (some (encSub tb b k1 k2)) (countBlock s)) ∨
       (s.msgMode = .ecb ∧ s.msgDir = .dec ∧ t = respond .ok true (some (decSub tb b k1 k2)) (countBlock s)) ∨
       (s.msgMode = .cbc ∧ s.msgDir = .enc ∧ ∃ c, s.chain = some c ∧
         t = respond .ok true (some (encSub tb (xorSeq b c) k1 k2))
           (countBlock (setChain (encSub tb (xorSeq b c) k1 k2) s))) ∨
       (s.msgMode = .cbc ∧ s.msgDir = .dec ∧ ∃ c, s.chain = some c ∧
         t = respond .ok true (some (xorSeq (decSub tb b k1 k2) c)) (countBlock (setChain b s))))) := by
  unfold msgblkUnder at h
  split at h
  · rename_i ha
    obtain ⟨k1, k2, h1, h2, h⟩ := withSubkeys_next.mp h
    refine .inr ⟨ha, k1, k2, h1, h2, ?_⟩
    split at h
    · exact .inl ⟨‹_›, ‹_›, (returned_next.mp h).symm⟩
    · exact .inr (.inl ⟨‹_›, ‹_›, (returned_next.mp h).symm⟩)
    · obtain ⟨c, hc, h⟩ := readReg_next.mp h
      exact .inr (.inr (.inl ⟨‹_›, ‹_›, c, hc, (returned_next.mp h).symm⟩))
    · obtain ⟨c, hc, h⟩ := readReg_next.mp h
      exact .inr (.inr (.inr ⟨‹_›, ‹_›, c, hc, (returned_next.mp h).symm⟩))
  · exact .inl ⟨Bool.eq_false_iff.mpr ‹_›, (raised_next.mp h).symm⟩

/-- Every next state of a command is the error state of a code other than OK, or a success response over register writes
that leave STICKY_ERR, the host's events, the responses and the free value's number alone. -/
theorem execUnder_answers {tb : Tables} {i : Instr} {s t : State} (h : execUnder tb i s = .next t) :
    (∃ e, e ≠ .ok ∧ t = raiseError e s) ∨
      ∃ x u, t = respond .ok x.isSome x u ∧ u.stickyErr = s.stickyErr ∧ u.host = s.host ∧
        u.responses = s.responses ∧ u.freeCount = s.freeCount := by
  cases i with
  | nop => exact .inr ⟨none, s, (done_next.mp h).symm, rfl, rfl, rfl, rfl⟩
  | ldiv v => exact .inr ⟨none, loadIv v s, (done_next.mp h).symm, rfl, rfl, rfl, rfl⟩
  | msgabort => exact .inr ⟨none, endSession s, (done_next.mp h).symm, rfl, rfl, rfl, rfl⟩
  | ldkey k =>
    rcases ldkeyUnder_cases h with ⟨-, h⟩ | ⟨-, h⟩
    · exact .inl ⟨_, by decide, h⟩
    · exact .inr ⟨none, _, h, rfl, rfl, rfl, rfl⟩
  | rdk1 =>
    rcases execRdk1_cases h with ⟨-, h⟩ | ⟨-, a, -, h⟩
    · exact .inl ⟨_, by decide, h⟩
    · exact .inr ⟨some a, _, h, rfl, rfl, rfl, rfl⟩
  | rdk2 =>
    rcases execRdk2_cases h with ⟨-, h⟩ | ⟨-, a, -, h⟩
    · exact .inl ⟨_, by decide, h⟩
    · exact .inr ⟨some a, _, h, rfl, rfl, rfl, rfl⟩
  | encb b =>
    rcases encbUnder_cases h with ⟨-, h⟩ | ⟨-, a, c, -, -, h⟩
    · exact .inl ⟨_, by decide, h⟩
    · exact .inr ⟨some (encSub tb b a c), _, h, rfl, rfl, rfl, rfl⟩
  | decb b =>
    rcases decbUnder_cases h with ⟨-, h⟩ | ⟨-, a, c, -, -, h⟩
    · exact .inl ⟨_, by decide, h⟩
    · exact .inr ⟨some (decSub tb b a c), _, h, rfl, rfl, rfl, rfl⟩
  | msgbegin m r n =>
    rcases execMsgbegin_cases h with ⟨-, h⟩ | ⟨-, -, h⟩ | ⟨-, -, -, -, h⟩ | ⟨-, -, -, -, h⟩ | ⟨-, -, -, -, h⟩ |
      ⟨-, -, -, -, -, _, -, h⟩
    on_goal 5 => exact .inr ⟨none, _, h, rfl, rfl, rfl, rfl⟩
    on_goal 5 => exact .inr ⟨none, _, h, rfl, rfl, rfl, rfl⟩
    all_goals exact .inl ⟨_, by decide, h⟩
  | msgblk b =>
    rcases msgblkUnder_cases h with ⟨-, h⟩ | ⟨-, _, _, -, -, ⟨-, -, h⟩ | ⟨-, -, h⟩ | ⟨-, -, _, -, h⟩ | ⟨-, -, _, -, h⟩⟩
    · exact .inl ⟨_, by decide, h⟩
    all_goals exact .inr ⟨some _, _, h, rfl, rfl, rfl, rfl⟩

theorem exec_answers {i : Instr} {s t : State} (h : exec i s = .next t) :
    (∃ e, e ≠ .ok ∧ t = raiseError e s) ∨
      ∃ x u, t = respond .ok x.isSome x u ∧ u.stickyErr = s.stickyErr ∧ u.host = s.host ∧
        u.responses = s.responses ∧ u.freeCount = s.freeCount :=
  execUnder_answers (tb := tables) (exec_eq ▸ h)

end Sys2Proof.Machine
end

