-- ==== Sys2Proof/Laws/PerInstr.lean ====
section
/-! SUPPORT. A statement about every command as syntax: its word carries its row's opcode and no reserved bit
(30_encoding.md R72, R74). -/

namespace Sys2Proof.Laws.EncodedForm

/-- The word of a command matches its own row of the opcode map. -/
def Statement (i : Instr) : Prop :=
  ∃ r ∈ opcodeMap, r.op = i.op ∧ fieldOpc (encode i) = r.opc ∧ encode i &&& r.mask = r.pattern

theorem nop : Statement .nop := ⟨opcodeMap[0], by decide, rfl, by decide, by decide⟩

theorem ldkey (key : Key) : Statement (.ldkey key) := by
  refine ⟨opcodeMap[1], by decide, rfl, ?_, ?_⟩ <;> apply BitVec.eq_of_getLsbD_eq <;> intro j hj <;>
    interval_cases j <;> simp [opcodeMap, fieldOpc, getElem_encode_ldkey]

theorem encb (blk : Block) : Statement (.encb blk) := by
  refine ⟨opcodeMap[2], by decide, rfl, ?_, ?_⟩ <;> apply BitVec.eq_of_getLsbD_eq <;> intro j hj <;>
    interval_cases j <;> simp [opcodeMap, fieldOpc, getElem_encode_encb]

theorem decb (blk : Block) : Statement (.decb blk) := by
  refine ⟨opcodeMap[3], by decide, rfl, ?_, ?_⟩ <;> apply BitVec.eq_of_getLsbD_eq <;> intro j hj <;>
    interval_cases j <;> simp [opcodeMap, fieldOpc, getElem_encode_decb]

theorem ldiv (iv : Block) : Statement (.ldiv iv) := by
  refine ⟨opcodeMap[4], by decide, rfl, ?_, ?_⟩ <;> apply BitVec.eq_of_getLsbD_eq <;> intro j hj <;>
    interval_cases j <;> simp [opcodeMap, fieldOpc, getElem_encode_ldiv]

theorem msgbegin (mode : Mode) (dir : Dir) (len : BitVec 16) : Statement (.msgbegin mode dir len) := by
  refine ⟨opcodeMap[5], by decide, rfl, ?_, ?_⟩ <;> apply BitVec.eq_of_getLsbD_eq <;> intro j hj <;>
    interval_cases j <;> simp [opcodeMap, fieldOpc, getElem_encode_msgbegin] <;> cases mode <;> cases dir <;> rfl

theorem msgblk (blk : Block) : Statement (.msgblk blk) := by
  refine ⟨opcodeMap[6], by decide, rfl, ?_, ?_⟩ <;> apply BitVec.eq_of_getLsbD_eq <;> intro j hj <;>
    interval_cases j <;> simp [opcodeMap, fieldOpc, getElem_encode_msgblk]

theorem msgabort : Statement .msgabort := ⟨opcodeMap[7], by decide, rfl, by decide, by decide⟩

theorem rdk1 : Statement .rdk1 := ⟨opcodeMap[8], by decide, rfl, by decide, by decide⟩

theorem rdk2 : Statement .rdk2 := ⟨opcodeMap[9], by decide, rfl, by decide, by decide⟩

end Sys2Proof.Laws.EncodedForm
end

