-- ==== Sys2Proof/Laws/Step.lean ====
section
/-! SUPPORT. What a step can do: serve the host's next event, or nothing. -/

namespace Sys2Proof.Machine

/-- The configuration meets 40_bitvector.md R105 and 41_sbox.md R125. -/
theorem validTables_tables : validTables tables = true := by decide

theorem performWord_eq : performWord = performWordUnder tables := by
  funext w s
  simp [performWord, performWordUnder, exec_eq]

theorem step_eq : step = stepUnder tables := by
  funext s
  simp [step, stepUnder, exec_eq]

/-- Under a TABLES that breaks R105 or R125 no step is made (93 S5). -/
theorem stepUnder_invalid {tb : Tables} (hv : validTables tb = false) (s : State) :
    stepUnder tb s = .fault .invalidTables := by
  simp [stepUnder, advance, hv]

theorem stepUnder_idle {tb : Tables} {s : State} (hv : validTables tb = true) (h : s.host = []) :
    stepUnder tb s = .next (idle s) := by
  simp [stepUnder, advance, hv, h]

theorem stepUnder_serve {tb : Tables} {s : State} {e : HostEvent} {rest : List HostEvent} (hv : validTables tb = true)
    (h : s.host = e :: rest) : stepUnder tb s = serve (execUnder tb) e (takeEvent rest s) := by
  simp [stepUnder, advance, hv, h]

/-- Every next state of a step, under any TABLES, is the idle state, the reset state, or what a command word makes. -/
theorem stepUnder_cases {tb : Tables} {s t : State} (h : stepUnder tb s = .next t) :
    (s.host = [] ∧ t = idle s) ∨
    (∃ w rest, s.host = .command w :: rest ∧ performWordUnder tb w (takeEvent rest s) = .next t) ∨
    (∃ p rest, s.host = .reset p :: rest ∧ t = toReset (takeEvent rest s)) := by
  cases hv : validTables tb with
  | false => simp [stepUnder_invalid hv] at h
  | true =>
    cases hs : s.host with
    | nil =>
      rw [stepUnder_idle hv hs] at h
      exact .inl ⟨rfl, by simpa using h.symm⟩
    | cons e rest =>
      rw [stepUnder_serve hv hs] at h
      cases e with
      | command w => exact .inr (.inl ⟨w, rest, rfl, h⟩)
      | reset p => exact .inr (.inr ⟨p, rest, rfl, by simpa [serve] using h.symm⟩)
      | unstableOffer w => simp [serve] at h

theorem step_idle {s : State} (h : s.host = []) : step s = .next (idle s) :=
  step_eq ▸ stepUnder_idle validTables_tables h

theorem step_serve {s : State} {e : HostEvent} {rest : List HostEvent} (h : s.host = e :: rest) :
    step s = serve exec e (takeEvent rest s) := by
  rw [step_eq, exec_eq, stepUnder_serve validTables_tables h]

/-- Every next state is the idle state, the reset state, or what a command word makes. -/
theorem step_cases {s t : State} (h : step s = .next t) :
    (s.host = [] ∧ t = idle s) ∨
    (∃ w rest, s.host = .command w :: rest ∧ performWord w (takeEvent rest s) = .next t) ∨
    (∃ p rest, s.host = .reset p :: rest ∧ t = toReset (takeEvent rest s)) := by
  rw [performWord_eq]
  exact stepUnder_cases (step_eq ▸ h)

/-- Performing a word is the meaning of its command, or the illegal-word error. -/
theorem performBy_cases {run : Instr → State → Result} {w : Word} {s t : State} (h : performBy run w s = .next t) :
    (∃ i, decode w = .command i ∧ run i s = .next t) ∨
    (∃ y, decode w = .illegal y ∧ t = raiseError .illegalCmd s) := by
  unfold performBy at h
  split at h
  · exact .inl ⟨_, ‹_›, h⟩
  · exact .inr ⟨_, ‹_›, (raised_next.mp h).symm⟩

theorem performWordUnder_cases {tb : Tables} {w : Word} {s t : State} (h : performWordUnder tb w s = .next t) :
    (∃ i, decode w = .command i ∧ execUnder tb i s = .next t) ∨
    (∃ y, decode w = .illegal y ∧ t = raiseError .illegalCmd s) := performBy_cases h

theorem performWord_cases {w : Word} {s t : State} (h : performWord w s = .next t) :
    (∃ i, decode w = .command i ∧ exec i s = .next t) ∨
    (∃ y, decode w = .illegal y ∧ t = raiseError .illegalCmd s) := performBy_cases h

end Sys2Proof.Machine
end

