-- ==== Sys2Proof/Laws/Safety.lean ====
section
/-! SUPPORT. The frame relations are reflexive and compose, and a response keeps every register it does not name. -/

namespace Sys2Proof.Machine

theorem sameKey_refl (s : State) : sameKey s s := ⟨rfl, rfl, rfl, rfl⟩

theorem sameIv_refl (s : State) : sameIv s s := ⟨rfl, rfl⟩

theorem sameSession_refl (s : State) : sameSession s s := ⟨rfl, rfl, rfl, rfl, rfl⟩

theorem sameKey_trans {s t u : State} (h : sameKey s t) (g : sameKey t u) : sameKey s u :=
  ⟨g.1.trans h.1, g.2.1.trans h.2.1, g.2.2.1.trans h.2.2.1, g.2.2.2.trans h.2.2.2⟩

theorem sameIv_trans {s t u : State} (h : sameIv s t) (g : sameIv t u) : sameIv s u :=
  ⟨g.1.trans h.1, g.2.trans h.2⟩

theorem sameSession_trans {s t u : State} (h : sameSession s t) (g : sameSession t u) : sameSession s u :=
  ⟨g.1.trans h.1, g.2.1.trans h.2.1, g.2.2.1.trans h.2.2.1, g.2.2.2.1.trans h.2.2.2.1, g.2.2.2.2.trans h.2.2.2.2⟩

/-- `raise Error` with the state it starts from. -/
theorem raiseError_failsWith (e : ErrCode) (s : State) : failsWith (errBits e) s (raiseError e s) :=
  ⟨⟨rfl, rfl, rfl, rfl, rfl, rfl⟩, rfl, sameKey_refl s, sameIv_refl s, sameSession_refl s⟩

/-- A success response over register writes that leave the answer's own fields alone. -/
theorem respond_succeedsWith {x : Option Block} {s u : State} (h1 : u.responses = s.responses) (h2 : u.host = s.host)
    (h3 : u.stickyErr = s.stickyErr) : succeedsWith x s (respond .ok x.isSome x u) :=
  ⟨⟨rfl, rfl, rfl, rfl, by simp [errBits, h1], h2⟩, h3⟩

/-- OK is the only code with number 0. -/
theorem errBits_eq_zero {e : ErrCode} : errBits e = 0 ↔ e = .ok := by cases e <;> decide

end Sys2Proof.Machine
end

