-- ==== Sys2Proof/Tests/Slice0.lean ====
section
/-! SUPPORT. Tests of one step, one decode or one function, with expected values from 95_test_vectors.md and the rules;
smoke tests of the operand checks; and, for every obligation with hypotheses, a state and operands that meet them. -/

namespace Sys2Proof.Tests

open Sys2Proof Sys2Proof.Machine

/-- The outcome is a next state with this property. -/
def answers (r : Result) (p : State → Bool) : Bool :=
  match r with
  | .next t => p t
  | _ => false

theorem exists_of_answers {r : Result} {p : State → Bool} (h : answers r p = true) : ∃ t, r = .next t ∧ p t = true := by
  cases r with
  | next t => exact ⟨t, rfl, h⟩
  | fault _ => simp [answers] at h
  | refused _ => simp [answers] at h

/-- After LDKEY 0b1010000010 (V-K1). -/
def keyed : State := { State.reset with key := some 0x282, k1 := some 0xA4, k2 := some 0x43, keyValid := true }

/-- Key and IV loaded (V-C12). -/
def keyedIv : State := { keyed with iv := some 0x55, ivValid := true }

/-- An ECB encryption session with two blocks left. -/
def inEcb : State := { keyed with msgActive := true, blkLeft := 2 }

/-- A CBC encryption session with two blocks left (V-C12). -/
def inCbc : State := { keyedIv with msgActive := true, msgMode := .cbc, chain := some 0x55, blkLeft := 2 }

/-- A CBC decryption session with its last block to come. -/
def inCbcDec : State := { inCbc with msgDir := .dec, blkLeft := 1 }

/-- A valid TABLES that is not the default: the boxes exchanged, and IP with its inverse (both exact inverses of each
other). -/
def otherTables : Tables :=
  { standardTables with ip := standardTables.ipInv, ipInv := standardTables.ip, s0 := standardTables.s1,
                        s1 := standardTables.s0 }

theorem otherTables_valid : validTables otherTables = true ∧ otherTables ≠ tables := by decide

/-! ### Operand checks (30_encoding.md R79) -/

theorem test_wf_key_digits : (AsmLine.ldkey (.bits (List.replicate 9 true))).wf = false ∧
    (AsmLine.ldkey (.bits (List.replicate 10 true))).wf = true := by decide

theorem test_wf_key_hex : (AsmLine.ldkey (.hex 0x400)).wf = false ∧ (AsmLine.ldkey (.hex 0x3FF)).wf = true := by decide

theorem test_wf_block_digits :
    (AsmLine.encb (.bits (List.replicate 7 true))).wf = false ∧ (AsmLine.decb (.bits (List.replicate 9 true))).wf = false ∧
    (AsmLine.ldiv (.hex 0x100)).wf = false ∧ (AsmLine.msgblk (.hex 0x100)).wf = false := by decide

theorem test_wf_len : (AsmLine.msgbegin .ecb .enc 65536).wf = false ∧ (AsmLine.msgbegin .ecb .enc 65535).wf = true := by
  decide

theorem test_wf_word : (AsmLine.word 0x100000000).wf = false ∧ (AsmLine.word 0xFFFFFFFF).wf = true := by decide

theorem test_assemble_ldkey : assembleLines ["LDKEY    0b1010000010        ; 0x10000282".toList] = some [0x10000282] := by
  decide

theorem test_assemble_msgbegin : assembleLines ["MSGBEGIN cbc, dec, 24".toList, "; end".toList] = some [0x50030018] := by
  decide

theorem test_assemble_raw_word : assembleLines [".word 0x200001D7".toList, "NOP".toList] = some [0x200001D7, 0] := by
  decide

theorem test_assemble_refuses : assembleLines ["ENCB 0b1101011".toList] = none ∧ assembleLines ["ENC 0b11010111".toList] = none := by
  decide

/-! ### Decoding, words written out from the layouts of R72 -/

theorem test_decode_nop : decode 0b0000_0000_0000_0000_0000_0000_0000_0000 = .command .nop := by decide

theorem test_decode_ldkey : decode 0b0001_0000_0000_0000_0000_0010_1000_0010 = .command (.ldkey 0b1010000010) := by decide

theorem test_decode_encb : decode 0b0010_0000_0000_0000_0000_0000_1101_0111 = .command (.encb 0b11010111) := by decide

theorem test_decode_decb : decode 0b0011_0000_0000_0000_0000_0000_1010_1000 = .command (.decb 0b10101000) := by decide

theorem test_decode_ldiv : decode 0b0100_0000_0000_0000_0000_0000_0101_0101 = .command (.ldiv 0b01010101) := by decide

theorem test_decode_msgbegin :
    decode 0b0101_0000_0000_0001_0000_0000_0001_1000 = .command (.msgbegin .cbc .enc 24) ∧
    decode 0b0101_0000_0000_0010_0000_0000_0001_1000 = .command (.msgbegin .ecb .dec 24) ∧
    decode 0b0101_0000_0000_0000_1111_1111_1111_1000 = .command (.msgbegin .ecb .enc 65528) := by decide

theorem test_decode_msgblk : decode 0b0110_0000_0000_0000_0000_0000_1101_0111 = .command (.msgblk 0b11010111) := by decide

theorem test_decode_msgabort : decode 0b0111_0000_0000_0000_0000_0000_0000_0000 = .command .msgabort := by decide

theorem test_decode_rdk1 : decode 0b1000_0000_0000_0000_0000_0000_0000_0000 = .command .rdk1 := by decide

theorem test_decode_rdk2 : decode 0b1001_0000_0000_0000_0000_0000_0000_0000 = .command .rdk2 := by decide

/-- The words of V-I are illegal, for the reason given there. -/
theorem test_illegal_words :
    [0x00000001, 0x10000400, 0x20000100, 0x30000100, 0x40000100, 0x50040000, 0x58000008, 0x60000100, 0x70000001,
      0x80000001, 0x90000080].all (fun w => decode w == .illegal .reservedBits) = true ∧
    [0xA0000000, 0xB0000000, 0xC0000000, 0xD0000000, 0xE0000000, 0xF0000000, 0xFFFFFFFF].all
      (fun w => decode w == .illegal .reservedOpcode) = true := by decide

/-- The masks of R74 are the bits that the formats of R72 leave fixed, and the patterns carry the opcode alone. -/
theorem test_masks_agree_with_formats :
    opcodeMap.all (fun r => r.mask == (0xF0000000 ||| r.format.reserved) && r.pattern == (r.opc.setWidth 32 <<< 28)) = true := by
  decide

theorem test_table_word : decodeTableWord 32 0x50030018 = some (.msgbegin .cbc .dec 24) ∧
    decodeTableWord 32 0xA0000000 = none := by decide

/-! ### Datapath (V-R, V-P, V-F, V-B) -/

theorem test_rotl : rotl (0b11000 : BitVec 5) 1 = 0b10001 ∧ rotl (0b00011 : BitVec 5) 2 = 0b01100 := by decide

theorem test_perm : perm 10 (0b1010000010 : Key) standardTables.p10 = 0b1000001100 ∧
    perm 8 (0b0000111000 : Key) standardTables.p8 = 0b10100100 ∧
    perm 8 (0b0111 : Half) standardTables.expand = 0b10111110 ∧
    perm 4 (0b1100 : Half) standardTables.p4 = 0b1001 := by decide

theorem test_roundF : roundF standardTables 0b1010 0b01000011 = 0b1111 ∧
    roundF standardTables 0b0101 0b10100100 = 0b1000 := by decide

/-- R152: EXPAND as wiring. -/
theorem test_expand_wiring : ∀ r : Half, perm 8 r standardTables.expand =
    (BitVec.ofBool (r.getLsbD 0) ++ BitVec.ofBool (r.getLsbD 3) ++ BitVec.ofBool (r.getLsbD 2) ++
      BitVec.ofBool (r.getLsbD 1) ++ BitVec.ofBool (r.getLsbD 2) ++ BitVec.ofBool (r.getLsbD 1) ++
      BitVec.ofBool (r.getLsbD 0) ++ BitVec.ofBool (r.getLsbD 3) : Block) := by decide

theorem test_encSub : encSub standardTables 0b00000000 0b10100100 0b01000011 = 0b11001110 ∧
    decSub standardTables 0b11010111 0b10100100 0b01000011 = 0b01111100 := by decide

/-- V-M3 and V-M7, the first two blocks. -/
theorem test_cbc_blocks :
    cbcEncryptBlocks standardTables 0x282 0x55 [0xD7, 0xD7] = [0b00001011, 0b11111001] ∧
    cbcDecryptBlocks standardTables 0x282 0x55 [0xD7, 0xD7] = [0b00101001, 0b10101011] := by decide

/-! ### One step per command (P3, P4, V-C) -/

theorem test_nop_clears_last_error :
    answers (exec .nop { keyed with lastErr := 1, stickyErr := true }) (fun t => status t == 0x0021) = true := by decide

theorem test_ldkey : answers (exec (.ldkey 0b0111111101) State.reset) (fun t =>
    t.k1 == some 0b01011111 && t.k2 == some 0b11111100 && status t == 0x0001) = true := by decide

theorem test_ldkey_busy : answers (exec (.ldkey 0) inEcb) (fun t => status t == 0x0625 && t.key == some 0x282) = true := by
  decide

theorem test_rdk1 : answers (exec .rdk1 keyed) (fun t => t.rspData == some 0b10100100 && status t == 0x0001) = true := by
  decide

theorem test_rdk2 : answers (exec .rdk2 keyed) (fun t => t.rspData == some 0b01000011 && t.rspDvalid) = true := by decide

theorem test_rdk2_no_key : answers (exec .rdk2 State.reset) (fun t => status t == 0x0220) = true := by decide

theorem test_encb : answers (exec (.encb 0b10010111) inCbc) (fun t =>
    t.rspData == some 0b00111000 && t.chain == some 0x55 && t.blkLeft == 2) = true := by decide

theorem test_encb_no_key : answers (exec (.encb 0) State.reset) (fun t => status t == 0x0220 && t.rspData == none) = true := by
  decide

theorem test_decb : answers (exec (.decb 0b10101000) keyed) (fun t => t.rspData == some 0b11010111) = true := by decide

theorem test_ldiv_leaves_chain : answers (exec (.ldiv 0) inCbc) (fun t =>
    t.iv == some 0 && t.chain == some 0x55 && status t == 0x000F) = true := by decide

theorem test_msgbegin_cbc : answers (exec (.msgbegin .cbc .dec 24) keyedIv) (fun t =>
    status t == 0x001F && t.blkLeft == 3 && t.chain == some 0x55) = true := by decide

theorem test_msgbegin_limits :
    answers (exec (.msgbegin .ecb .enc 65528) keyed) (fun t => status t == 0x0005 && t.blkLeft == 8191) = true ∧
    answers (exec (.msgbegin .ecb .enc 65535) keyed) (fun t => status t == 0x0421) = true ∧
    answers (exec (.msgbegin .cbc .enc 0) keyedIv) (fun t => status t == 0x000B && t.chain == some 0x55) = true := by
  decide

theorem test_msgblk_cbc : answers (exec (.msgblk 0b11010111) inCbc) (fun t =>
    t.rspData == some 0b00001011 && t.chain == some 0b00001011 && t.blkLeft == 1 && status t == 0x000F) = true := by decide

theorem test_msgblk_last_cbc_dec : answers (exec (.msgblk 0b00001011) inCbcDec) (fun t =>
    t.rspData == some 0b11010111 && t.chain == some 0b00001011 && status t == 0x001B) = true := by decide

theorem test_msgabort : answers (exec .msgabort inCbc) (fun t =>
    status t == 0x000B && t.blkLeft == 0 && t.chain == some 0x55) = true := by decide

theorem test_illegal : answers (performWord 0xA0000000 inEcb) (fun t => status t == 0x0125 && t.blkLeft == 2) = true := by
  decide

theorem test_step_takes_the_offered_word :
    answers (step (keyed.withFetchWord 32 0x200000D7)) (fun t => t.rspData == some 0b10101000 && t.host == []) = true := by
  decide

/-- R212: the step of a core with other TABLES; the answer is R162 worked out outside Lean (the default answers
0b10101000). -/
theorem test_step_under_other_tables :
    answers (stepUnder otherTables (keyed.withFetchWord 32 0x200000D7)) (fun t => t.rspData == some 0b10010000) = true := by
  decide

theorem test_step_under_invalid_tables :
    stepUnder { standardTables with p4 := [] } keyed = .fault .invalidTables := rfl

/-- R199: a CBC message in two sessions, the second with the last ciphertext block of the first as its IV (V-M3). -/
theorem test_next_iv : nextIv .enc [0xD7] [0b00001011] 0x55 = 0b00001011 ∧
    nextIv .dec [0b00001011] [0xD7] 0x55 = 0b00001011 ∧ nextIv .enc [] [] 0x55 = 0x55 := by decide

theorem test_step_reset : answers (step { inCbc with host := [.reset (some 0x600000D7)] }) (fun t =>
    status t == 0 && t.key == none && t.chain == none && t.responses == []) = true := by decide

/-! ### Witnesses: the hypotheses of each obligation can be met -/

theorem witness_LegalWordIsTheEncodingOfItsCommand : ∃ w i, decode w = .command i := ⟨0x5000FFF8, _, rfl⟩

theorem witness_WordIsCommandExactlyWhenItMatchesItsRow :
    ∃ (w : Word) (r q : OpcodeRow), r ∈ opcodeMap ∧ q ∈ opcodeMap ∧ w &&& r.mask = r.pattern ∧ w &&& q.mask = q.pattern :=
  ⟨0x600000FF, opcodeMap[6], opcodeMap[6], by decide, by decide, by decide, by decide⟩

theorem witness_reserved_opcodes : 10 ≤ ((0xA0000000 : Word) >>> 28).toNat ∧ 10 ≤ ((0xFFFFFFFF : Word) >>> 28).toNat := by
  decide

theorem witness_OperandFieldsAreTakenAsTheyStand :
    (∃ w k, decode w = .command (.ldkey k)) ∧ (∃ w b, decode w = .command (.encb b)) ∧
    (∃ w b, decode w = .command (.decb b)) ∧ (∃ w b, decode w = .command (.ldiv b)) ∧
    (∃ w b, decode w = .command (.msgblk b)) ∧ (∃ w m d n, decode w = .command (.msgbegin m d n)) :=
  ⟨⟨0x100003FF, _, rfl⟩, ⟨0x20000000, _, rfl⟩, ⟨0x300000FF, _, rfl⟩, ⟨0x400000FF, _, rfl⟩, ⟨0x60000000, _, rfl⟩,
    ⟨0x5003FFFF, _, _, _, rfl⟩⟩

theorem witness_IllegalWordAnswersIllegalCmdOnly :
    (∃ w : Word, ∀ i, decode w ≠ .command i) ∧
    (∃ (w : Word) (r : OpcodeRow), r ∈ opcodeMap ∧ r.opc.toNat = (w >>> 28).toNat) := by
  refine ⟨⟨0xA0000000, fun i h => ?_⟩, 0x90000080, opcodeMap[9], by decide, by decide⟩
  have h' : decode 0xA0000000 = .illegal .reservedOpcode := by decide
  rw [h'] at h
  cases h

theorem witness_AssembledMnemonicIsOneLegalWord :
    (Literal.bits (List.replicate 10 true)).fits 10 = true ∧ (Literal.hex 0x3FF).fits 10 = true ∧
    (Literal.hex 0xFF).fits 8 = true ∧ (Literal.bits (List.replicate 9 true)).fits 10 = false ∧
    (Literal.hex 0x100).fits 8 = false ∧ (65535 : Nat) ≤ 65535 ∧ 65535 < 65536 ∧ 0xFFFFFFFF < 2 ^ 32 ∧
    2 ^ 32 ≤ 0x100000000 := by decide

theorem witness_StepPerformsTheOfferedWord :
    (∃ (s : State) (w : Word) (rest : List HostEvent) (i : Instr), s.host = .command w :: rest ∧ decode w = .command i) ∧
    (∃ (s : State) (w : Word) (rest : List HostEvent) (y : Illegal), s.host = .command w :: rest ∧ decode w = .illegal y) ∧
    (∃ (w : Nat) (i : Instr), decodeTableWord 32 w = some i) ∧
    (Instr.rdk1).op ∉ [Op.ldkey, Op.encb, Op.decb, Op.msgblk] ∧ validTables otherTables = true ∧
    validTables { standardTables with p4 := [] } = false :=
  ⟨⟨{ keyed with host := [.command 0] }, 0, [], .nop, rfl, by decide⟩,
    ⟨{ keyed with host := [.command 1] }, 1, [], .reservedBits, rfl, by decide⟩, ⟨0x70000000, .msgabort, by decide⟩, by decide,
    by decide, by decide⟩

theorem witness_StepWithoutACommandWord_idle : inCbc.host = [] := rfl

theorem witness_ResetAbandonsTheCommandInProgress :
    ∃ s : State, s.host = .reset (some 0x600000D7) :: [] ∧ s.msgActive = true := ⟨{ inCbc with host := _ }, rfl, rfl⟩

theorem witness_StepWithoutACommandWord_broken : ∃ s : State, s.host = .unstableOffer 0 :: [] := ⟨{ keyed with host := _ }, rfl⟩

theorem witness_StepKeepsTheInvariants :
    inCbc.Inv ∧ inCbcDec.Inv ∧ inEcb.Inv ∧ (∃ t, step { inCbc with host := [.command 0x600000D7] } = .next t) ∧
    inCbc.InvUnder otherTables ∧ ∃ t, stepUnder otherTables { inCbc with host := [.command 0x600000D7] } = .next t :=
  ⟨by decide, by decide, by decide, (exists_of_answers (p := fun _ => true) (by decide)).imp fun _ h => h.1, by decide,
    (exists_of_answers (p := fun _ => true) (by decide)).imp fun _ h => h.1⟩

theorem witness_EveryWordIsAnsweredUnderTheInvariants : inCbcDec.Inv ∧ keyedIv.Inv ∧ inCbcDec.InvUnder otherTables :=
  ⟨by decide, by decide, by decide⟩

theorem witness_ReadOfNoneFaults :
    (∃ s : State, s.keyValid = true ∧ s.k1 = none) ∧ (∃ s : State, s.keyValid = true ∧ s.k2 = none) ∧
    (∃ s : State, s.keyValid = true ∧ s.k1 ≠ none ∧ s.k2 = none) ∧
    (∃ s : State, s.msgActive = false ∧ s.keyValid = true ∧ s.ivValid = true ∧ s.iv = none) ∧
    (∃ s : State, s.msgActive = true ∧ s.k1 = none) ∧
    (∃ s : State, s.msgActive = true ∧ s.k1 ≠ none ∧ s.k2 = none) ∧
    (∃ s : State, s.msgActive = true ∧ s.k1 ≠ none ∧ s.k2 ≠ none ∧ s.msgMode = .cbc ∧ s.chain = none) :=
  ⟨⟨{ keyed with k1 := none }, by decide⟩, ⟨{ keyed with k2 := none }, by decide⟩, ⟨{ keyed with k2 := none }, by decide⟩,
    ⟨{ keyedIv with iv := none }, by decide⟩, ⟨{ inEcb with k1 := none }, by decide⟩,
    ⟨{ inEcb with k2 := none }, by decide⟩, { inCbc with chain := none }, by decide⟩

theorem witness_KeyIsFixedDuringASession : inEcb.msgActive = true ∧ ∃ t, performWord 0x10000000 inEcb = .next t :=
  ⟨rfl, _, rfl⟩

theorem witness_KeyAndIvChangeOnlyByTheirLoadOrReset :
    ∃ s t : State, step s = .next t ∧ (s.keyValid = true ∧ t.keyValid = false) ∧ s.ivValid = true ∧ t.ivValid = false := by
  obtain ⟨t, h, p⟩ := exists_of_answers
    (r := step { keyedIv with host := [.reset none] }) (p := fun t => !t.keyValid && !t.ivValid) (by decide)
  simp only [Bool.and_eq_true, Bool.not_eq_true'] at p
  exact ⟨_, t, h, ⟨rfl, p.1⟩, rfl, p.2⟩

theorem witness_ChainHoldsTheCiphertextInCbcOnly :
    (∃ t, exec (.msgblk 0xD7) inEcb = .next t ∧ inEcb.msgMode = .ecb) ∧
    (∃ t, exec (.msgblk 0xD7) inCbc = .next t ∧ t.lastErr = 0 ∧ inCbc.msgMode = .cbc ∧ inCbc.msgDir = .enc) ∧
    (∃ t, exec (.msgblk 0xD7) inCbcDec = .next t ∧ t.lastErr = 0 ∧ inCbcDec.msgMode = .cbc ∧ inCbcDec.msgDir = .dec) :=
  ⟨⟨_, rfl, rfl⟩, ⟨_, rfl, rfl, rfl, rfl⟩, _, rfl, rfl, rfl, rfl⟩

theorem witness_SessionEndsInThreeWaysOnly :
    (∃ s t : State, step s = .next t ∧ s.msgActive = true ∧ t.msgActive = false) ∧
    (∃ t, exec (.msgblk 0x0B) inCbcDec = .next t ∧ inCbcDec.msgActive = true ∧ inCbcDec.blkLeft = 1) ∧
    (∃ t, exec .msgabort inEcb = .next t) ∧
    (∃ (s t : State) (p : Option Word) (rest : List HostEvent), s.host = .reset p :: rest ∧ step s = .next t) ∧
    (∃ t, performWord 0x10000000 inEcb = .next t ∧ t.lastErr ≠ 0) := by
  refine ⟨?_, ⟨_, rfl, rfl, rfl⟩, ⟨_, rfl⟩, ?_, _, rfl, by decide⟩
  · obtain ⟨t, h, p⟩ := exists_of_answers
      (r := step { inEcb with host := [.command 0x70000000] }) (p := fun t => !t.msgActive) (by decide)
    exact ⟨_, t, h, rfl, by simpa using p⟩
  · obtain ⟨t, h, -⟩ := exists_of_answers (r := step { inEcb with host := [.reset none] }) (p := fun _ => true) (by decide)
    exact ⟨_, t, none, [], rfl, h⟩

theorem witness_InterleavedCommandsKeepTheSession :
    (Instr.encb 0).op ∈ [Op.encb, Op.decb, Op.rdk1, Op.rdk2, Op.ldiv, Op.nop] ∧ (∃ t, exec (.encb 0) inCbc = .next t) ∧
    (Instr.ldkey 0).op ∈ [Op.ldkey, Op.msgbegin] ∧ inCbc.msgActive = true ∧
    (∃ t, performWord 0xF0000000 inCbc = .next t ∧ t.lastErr ≠ 0) :=
  ⟨by decide, ⟨_, rfl⟩, by decide, rfl, _, rfl, by decide⟩

theorem witness_FailingCommandChangesOnlyTheErrorAnswer :
    (∃ t, performWord 0x20000000 State.reset = .next t ∧ t.lastErr ≠ 0) ∧
    (∃ t, performWord 0x20000000 keyed = .next t ∧ t.lastErr = 0) := ⟨⟨_, rfl, by decide⟩, _, rfl, rfl⟩

theorem witness_FirstApplicableErrorIsRaised :
    (∃ t, exec (.msgbegin .cbc .enc 20) keyed = .next t) ∧
    (∃ t, decode 0x50040000 = .illegal .reservedBits ∧ performWord 0x50040000 keyed = .next t) :=
  ⟨⟨_, rfl⟩, _, by decide, rfl⟩

theorem witness_ReservedErrorCodesAreNeverGiven : ∃ t, performWord 0x50000007 inEcb = .next t := ⟨_, rfl⟩

theorem witness_StickyErrorIsClearedOnlyByReset :
    (∃ t, performWord 0x60000000 keyed = .next t ∧ t.lastErr ≠ 0) ∧
    (∃ t, performWord 0 { keyed with stickyErr := true } = .next t) ∧
    (∃ s t : State, step s = .next t ∧ s.stickyErr = true ∧ t.stickyErr = false) := by
  refine ⟨⟨_, rfl, by decide⟩, ⟨_, rfl⟩, ?_⟩
  obtain ⟨t, h, p⟩ := exists_of_answers
    (r := step { keyed with stickyErr := true, host := [.reset none] }) (p := fun t => !t.stickyErr) (by decide)
  exact ⟨_, t, h, rfl, by simpa using p⟩

theorem witness_DataIsValidExactlyForDataCommands :
    (∃ t, exec .rdk1 keyed = .next t ∧ t.rspDvalid = true) ∧ (∃ t, exec .rdk1 State.reset = .next t ∧ t.rspDvalid = false) ∧
    (∃ t, decode 0xA0000000 = .illegal .reservedOpcode ∧ performWord 0xA0000000 keyed = .next t) :=
  ⟨⟨_, rfl, rfl⟩, ⟨_, rfl, rfl⟩, _, by decide, rfl⟩

theorem witness_EachCommandGivesOneResponse : ∃ t, performWord 0x600000D7 inCbc = .next t := ⟨_, rfl⟩

theorem witness_KeyRegisterIsNeverReadable : ∃ t, performWord 0x80000000 keyed = .next t := ⟨_, rfl⟩

theorem witness_RepeatedCommandGivesTheSameRegisters :
    (Instr.ldkey 0x3FF).op ∈ [Op.ldkey, Op.ldiv, Op.nop, Op.msgabort, Op.rdk1, Op.rdk2] ∧
    ∃ t, exec (.ldkey 0x3FF) keyed = .next t := ⟨by decide, _, rfl⟩

theorem witness_ResponsePortsShowTheResponse : ∃ s : State, s.rspDvalid = true ∧ s.rspData = some 0xFF :=
  ⟨{ keyed with rspDvalid := true, rspData := some 0xFF }, rfl, rfl⟩

theorem witness_LdkeyLoadsKeyAndSubkeys :
    (∃ w k, decode w = .command (.ldkey k)) ∧ inEcb.msgActive = true ∧ keyed.msgActive = false ∧
    keyed.key = some 0x282 ∧ keyed.Inv := ⟨⟨0x10000000, _, rfl⟩, rfl, rfl, rfl, by decide⟩

theorem witness_RdkReturnsTheSubkeys :
    State.reset.keyValid = false ∧ keyed.keyValid = true ∧ keyed.k1 = some 0xA4 ∧ keyed.k2 = some 0x43 :=
  ⟨rfl, rfl, rfl, rfl⟩

theorem witness_EncbAndDecb :
    (∃ w b, decode w = .command (.encb b)) ∧ (∃ w b, decode w = .command (.decb b)) ∧ State.reset.keyValid = false ∧
    inCbc.keyValid = true ∧ inCbc.k1 = some 0xA4 ∧ inCbc.k2 = some 0x43 :=
  ⟨⟨0x200000FF, _, rfl⟩, ⟨0x30000000, _, rfl⟩, rfl, rfl, rfl, rfl⟩

theorem witness_LdivLoadsTheVector :
    (∃ w v, decode w = .command (.ldiv v)) ∧ ∃ t, exec (.ldiv 0xFF) inCbc = .next t := ⟨⟨0x40000000, _, rfl⟩, _, rfl⟩

theorem witness_MsgbeginStartsASession :
    (∃ w m d n, decode w = .command (.msgbegin m d n)) ∧ inEcb.msgActive = true ∧
    (State.reset.msgActive = false ∧ State.reset.keyValid = false) ∧
    (keyed.msgActive = false ∧ keyed.keyValid = true ∧ keyed.ivValid = false) ∧
    (keyedIv.msgActive = false ∧ keyedIv.keyValid = true ∧ keyedIv.ivValid = true ∧ keyedIv.iv = some 0x55) ∧
    (65535#16).toNat % 8 ≠ 0 ∧ (65528#16).toNat % 8 = 0 ∧ (0#16).toNat % 8 = 0 :=
  ⟨⟨0x50000000, _, _, _, rfl⟩, rfl, ⟨rfl, rfl⟩, ⟨rfl, rfl, rfl⟩, ⟨rfl, rfl, rfl, rfl⟩, by decide, by decide, by decide⟩

theorem witness_MsgblkProcessesTheNextBlock :
    (∃ w b, decode w = .command (.msgblk b)) ∧ keyed.msgActive = false ∧
    (inEcb.msgActive = true ∧ inEcb.k1 = some 0xA4 ∧ inEcb.k2 = some 0x43 ∧ inEcb.msgMode = .ecb) ∧
    (inCbc.msgActive = true ∧ inCbc.k1 = some 0xA4 ∧ inCbc.k2 = some 0x43 ∧ inCbc.msgMode = .cbc ∧ inCbc.msgDir = .enc ∧
      inCbc.chain = some 0x55) ∧
    (inCbcDec.msgActive = true ∧ inCbcDec.k1 = some 0xA4 ∧ inCbcDec.k2 = some 0x43 ∧ inCbcDec.msgMode = .cbc ∧
      inCbcDec.msgDir = .dec ∧ inCbcDec.chain = some 0x55) ∧ inCbcDec.Inv := by
  refine ⟨⟨0x600000FF, _, rfl⟩, ?_⟩
  decide

theorem witness_MsgabortEndsTheSession : keyedIv.Inv ∧ keyedIv.msgActive = false := ⟨by decide, rfl⟩

theorem witness_PermutationPicksThePatternsElements :
    standardTables.expand.length = 8 ∧ ∀ k ∈ standardTables.expand, 1 ≤ k ∧ k ≤ 4 := by decide

theorem witness_RotationAndLaws : (2 : Nat) < 5 ∧ (4 : Nat) < 5 ∧ validTables standardTables = true := by decide

theorem witness_BoxLookupByRowAndColumn : isBox standardTables.s0 = true ∧ isBox standardTables.s1 = true := by decide

theorem witness_DefaultKeyScheduleIsInjective : keySchedule tables 0x282 = keySchedule tables 0x282 := rfl

theorem witness_DecryptUndoesEncrypt : validTables tables = true := by decide

theorem witness_CommandsAfterLdkeyComputeTheSourceFunctions :
    keyedIv.msgActive = false := rfl

theorem witness_MisalignedMessageHasNoResult :
    blocksOf [true, true, false, true, false, true, true, true] = some [0xD7] ∧
    (List.replicate 9 true).length % 8 ≠ 0 ∧ blocksOf (List.replicate 9 true) = none := by decide

theorem witness_SessionComputesTheModeFunction :
    keyedIv.Inv ∧ keyedIv.InvUnder otherTables ∧ keyedIv.msgActive = false ∧ keyedIv.key = some 0x282 ∧ keyedIv.iv = some 0x55 ∧
    (16#16).toNat = 8 * [(([0x40000000, 0xA0000000] : List Word), (0xD7 : Block)), ([], 0xD7)].length ∧
    mayInterleave 0x40000000 = true ∧ mayInterleave 0xA0000000 = true := by decide

theorem witness_SourceFunctionsByCommandSequences :
    State.reset.InvUnder tables ∧ State.reset.msgActive = false ∧ (List.replicate 8191 (0 : Block)).length ≤ 8191 :=
  ⟨by decide, rfl, le_of_eq List.length_replicate⟩

theorem witness_LongMessageAsSeveralSessions :
    keyedIv.Inv ∧ keyedIv.InvUnder otherTables ∧ keyedIv.msgActive = false ∧ keyedIv.key = some 0x282 ∧
    (List.replicate 8191 (0 : Block)).length ≤ 8191 :=
  ⟨by decide, by decide, rfl, rfl, le_of_eq List.length_replicate⟩

theorem witness_EcbBlocksAreIndependent :
    ∃ s' : State, inEcb.msgActive = true ∧ s'.msgActive = true ∧ inEcb.msgMode = .ecb ∧ s'.msgMode = .ecb ∧
      inEcb.msgDir = s'.msgDir ∧ inEcb.k1 = s'.k1 ∧ inEcb.k2 = s'.k2 ∧ (∃ t, exec (.msgblk 1) inEcb = .next t) ∧
      (∃ t, exec (.msgblk 1) s' = .next t) ∧ s'.blkLeft ≠ inEcb.blkLeft :=
  ⟨{ inEcb with blkLeft := 7, chain := some 9 }, rfl, rfl, rfl, rfl, rfl, rfl, rfl, ⟨_, rfl⟩, ⟨_, rfl⟩, by decide⟩

theorem witness_CbcStatements : validTables standardTables = true ∧ (0xD7 : Block) ≠ 0xD6 := by decide

end Sys2Proof.Tests
end

section
/-! SUPPORT. What a command can do, said once: it raises the first error that applies (60_exceptions.md R223), or it
succeeds with the register writes of one constructor of `Succeeds`. -/

namespace Sys2Proof.Machine

/-- `Succeeds tb s i x u`: the command `i` succeeds in `s`, its data is `x`, and `u` is `s` after its register writes and
before the response. -/
inductive Succeeds (tb : Tables) (s : State) : Instr → Option Block → State → Prop
  | nop : Succeeds tb s .nop none s
  | ldkey (k : Key) (ha : s.msgActive = false) : Succeeds tb s (.ldkey k) none (loadKey tb k s)
  | encb (b : Block) {k1 k2 : Block} (hk : s.keyValid = true) (h1 : s.k1 = some k1) (h2 : s.k2 = some k2) :
    Succeeds tb s (.encb b) (some (encSub tb b k1 k2)) s
  | decb (b : Block) {k1 k2 : Block} (hk : s.keyValid = true) (h1 : s.k1 = some k1) (h2 : s.k2 = some k2) :
    Succeeds tb s (.decb b) (some (decSub tb b k1 k2)) s
  | ldiv (v : Block) : Succeeds tb s (.ldiv v) none (loadIv v s)
  | msgbeginEcb (d : Dir) {n : BitVec 16} (ha : s.msgActive = false) (hk : s.keyValid = true) (hn : n.toNat % 8 = 0) :
    Succeeds tb s (.msgbegin .ecb d n) none (beginSession .ecb d n s)
  | msgbeginCbc (d : Dir) {n : BitVec 16} {v : Block} (ha : s.msgActive = false) (hk : s.keyValid = true)
      (hn : n.toNat % 8 = 0) (hi : s.ivValid = true) (hv : s.iv = some v) :
    Succeeds tb s (.msgbegin .cbc d n) none (setChain v (beginSession .cbc d n s))
  | msgblkEcbEnc (b : Block) {k1 k2 : Block} (ha : s.msgActive = true) (h1 : s.k1 = some k1) (h2 : s.k2 = some k2)
      (hm : s.msgMode = .ecb) (hd : s.msgDir = .enc) :
    Succeeds tb s (.msgblk b) (some (encSub tb b k1 k2)) (countBlock s)
  | msgblkEcbDec (b : Block) {k1 k2 : Block} (ha : s.msgActive = true) (h1 : s.k1 = some k1) (h2 : s.k2 = some k2)
      (hm : s.msgMode = .ecb) (hd : s.msgDir = .dec) :
    Succeeds tb s (.msgblk b) (some (decSub tb b k1 k2)) (countBlock s)
  | msgblkCbcEnc (b : Block) {k1 k2 c : Block} (ha : s.msgActive = true) (h1 : s.k1 = some k1) (h2 : s.k2 = some k2)
      (hm : s.msgMode = .cbc) (hd : s.msgDir = .enc) (hc : s.chain = some c) :
    Succeeds tb s (.msgblk b) (some (encSub tb (xorSeq b c) k1 k2))
      (countBlock (setChain (encSub tb (xorSeq b c) k1 k2) s))
  | msgblkCbcDec (b : Block) {k1 k2 c : Block} (ha : s.msgActive = true) (h1 : s.k1 = some k1) (h2 : s.k2 = some k2)
      (hm : s.msgMode = .cbc) (hd : s.msgDir = .dec) (hc : s.chain = some c) :
    Succeeds tb s (.msgblk b) (some (xorSeq (decSub tb b k1 k2) c)) (countBlock (setChain b s))
  | msgabort : Succeeds tb s .msgabort none (endSession s)
  | rdk1 {k1 : Block} (hk : s.keyValid = true) (h1 : s.k1 = some k1) : Succeeds tb s .rdk1 (some k1) s
  | rdk2 {k2 : Block} (hk : s.keyValid = true) (h2 : s.k2 = some k2) : Succeeds tb s .rdk2 (some k2) s

/-- A command that succeeds answers its data over its register writes. -/
theorem Succeeds.execUnder_eq {tb : Tables} {s u : State} {i : Instr} {x : Option Block} (h : Succeeds tb s i x u) :
    execUnder tb i s = .next (respond .ok x.isSome x u) := by
  cases h with
  | nop | ldiv | msgabort => rfl
  | ldkey k ha => simp [execUnder, ldkeyUnder, ha, done]
  | encb b hk h1 h2 => simp [execUnder, encbUnder, hk, withSubkeys_some h1 h2, returned]
  | decb b hk h1 h2 => simp [execUnder, decbUnder, hk, withSubkeys_some h1 h2, returned]
  | msgbeginEcb d ha hk hn => simp [execUnder, execMsgbegin, ha, hk, hn, done]
  | msgbeginCbc d ha hk hn hi hv => simp [execUnder, execMsgbegin, ha, hk, hn, hi, hv, done]
  | msgblkEcbEnc b ha h1 h2 hm hd | msgblkEcbDec b ha h1 h2 hm hd =>
    simp [execUnder, msgblkUnder, ha, withSubkeys_some h1 h2, hm, hd, returned]
  | msgblkCbcEnc b ha h1 h2 hm hd hc | msgblkCbcDec b ha h1 h2 hm hd hc =>
    simp [execUnder, msgblkUnder, ha, withSubkeys_some h1 h2, hm, hd, hc, returned]
  | rdk1 hk h1 => simp [execUnder, execRdk1, hk, h1, returned]
  | rdk2 hk h2 => simp [execUnder, execRdk2, hk, h2, returned]

theorem mode_bit_eq (m : Mode) : m.bit = decide (m = .cbc) := by cases m <;> rfl

/-- A command raises its first error, whatever the registers that may hold `none`. -/
theorem execUnder_of_firstError {i : Instr} {s : State} (tb : Tables) (h : firstError i s ≠ .ok) :
    execUnder tb i s = .next (raiseError (firstError i s) s) := by
  cases i with
  | nop | ldiv | msgabort => exact absurd rfl h
  | ldkey k =>
    cases ha : s.msgActive with
    | true => simp [execUnder, ldkeyUnder, firstError, ha, raised]
    | false => simp [firstError, ha] at h
  | encb b | decb b | rdk1 | rdk2 =>
    cases hk : s.keyValid with
    | true => simp [firstError, hk] at h
    | false => simp [execUnder, encbUnder, decbUnder, execRdk1, execRdk2, firstError, hk, raised]
  | msgblk b =>
    cases ha : s.msgActive with
    | true => simp [firstError, ha] at h
    | false => simp [execUnder, msgblkUnder, firstError, ha, raised]
  | msgbegin m d n =>
    cases ha : s.msgActive with
    | true => simp [execUnder, execMsgbegin, firstError, ha, raised]
    | false =>
      cases hk : s.keyValid with
      | false => simp [execUnder, execMsgbegin, firstError, ha, hk, raised]
      | true =>
        by_cases hi : m = .cbc ∧ s.ivValid = false
        · simp [execUnder, execMsgbegin, firstError, mode_bit_eq, ha, hk, hi, raised]
        · by_cases hn : n.toNat % 8 = 0
          · simp [firstError, mode_bit_eq, ha, hk, hi, hn] at h
          · simp [execUnder, execMsgbegin, firstError, mode_bit_eq, ha, hk, hi, hn, raised]

/-- What MSGBEGIN's checks have established when none of them fails (45_modes.md R186). -/
theorem firstError_msgbegin_ok {m : Mode} {d : Dir} {n : BitVec 16} {s : State}
    (h : firstError (.msgbegin m d n) s = .ok) :
    s.msgActive = false ∧ s.keyValid = true ∧ (m = .cbc → s.ivValid = true) ∧ n.toNat % 8 = 0 := by
  simp only [firstError] at h
  split_ifs at h with ha hk hi hn
  refine ⟨by simpa using ha, by simpa using hk, ?_, by simpa using hn⟩
  rintro rfl
  simpa [Mode.bit] using hi

/-- Every next state of a command is the error state of its first error, or its success response over its register
writes. -/
theorem execUnder_cases {tb : Tables} {i : Instr} {s t : State} (h : execUnder tb i s = .next t) :
    (firstError i s ≠ .ok ∧ t = raiseError (firstError i s) s) ∨
      ∃ x u, Succeeds tb s i x u ∧ t = respond .ok x.isSome x u := by
  by_cases hf : firstError i s = .ok
  case neg =>
    rw [execUnder_of_firstError tb hf] at h
    exact .inl ⟨hf, by simpa using h.symm⟩
  right
  cases i with
  | nop => exact ⟨_, _, .nop, (done_next.mp h).symm⟩
  | ldiv v => exact ⟨_, _, .ldiv v, (done_next.mp h).symm⟩
  | msgabort => exact ⟨_, _, .msgabort, (done_next.mp h).symm⟩
  | ldkey k =>
    obtain ⟨ha, -⟩ | ⟨ha, rfl⟩ := ldkeyUnder_cases h
    · simp [firstError, ha] at hf
    · exact ⟨_, _, .ldkey k ha, rfl⟩
  | encb b =>
    obtain ⟨hk, -⟩ | ⟨hk, k1, k2, h1, h2, rfl⟩ := encbUnder_cases h
    · simp [firstError, hk] at hf
    · exact ⟨_, _, .encb b hk h1 h2, rfl⟩
  | decb b =>
    obtain ⟨hk, -⟩ | ⟨hk, k1, k2, h1, h2, rfl⟩ := decbUnder_cases h
    · simp [firstError, hk] at hf
    · exact ⟨_, _, .decb b hk h1 h2, rfl⟩
  | rdk1 =>
    obtain ⟨hk, -⟩ | ⟨hk, k1, h1, rfl⟩ := execRdk1_cases h
    · simp [firstError, hk] at hf
    · exact ⟨_, _, .rdk1 hk h1, rfl⟩
  | rdk2 =>
    obtain ⟨hk, -⟩ | ⟨hk, k2, h2, rfl⟩ := execRdk2_cases h
    · simp [firstError, hk] at hf
    · exact ⟨_, _, .rdk2 hk h2, rfl⟩
  | msgbegin m d n =>
    obtain ⟨ha, hk, hi, hn⟩ := firstError_msgbegin_ok hf
    obtain ⟨ha', -⟩ | ⟨-, hk', -⟩ | ⟨-, -, rfl, hi', -⟩ | ⟨-, -, -, hn', -⟩ | ⟨-, -, -, rfl, rfl⟩ |
      ⟨-, -, -, rfl, hi, v, hv, rfl⟩ := execMsgbegin_cases h
    · simp [ha] at ha'
    · simp [hk] at hk'
    · simp [hi] at hi'
    · exact absurd hn hn'
    · exact ⟨_, _, .msgbeginEcb d ha hk hn, rfl⟩
    · exact ⟨_, _, .msgbeginCbc d ha hk hn hi hv, rfl⟩
  | msgblk b =>
    obtain ⟨ha, -⟩ | ⟨ha, k1, k2, h1, h2,
        ⟨hm, hd, rfl⟩ | ⟨hm, hd, rfl⟩ | ⟨hm, hd, c, hc, rfl⟩ | ⟨hm, hd, c, hc, rfl⟩⟩ :=
      msgblkUnder_cases h
    · simp [firstError, ha] at hf
    · exact ⟨_, _, .msgblkEcbEnc b ha h1 h2 hm hd, rfl⟩
    · exact ⟨_, _, .msgblkEcbDec b ha h1 h2 hm hd, rfl⟩
    · exact ⟨_, _, .msgblkCbcEnc b ha h1 h2 hm hd hc, rfl⟩
    · exact ⟨_, _, .msgblkCbcDec b ha h1 h2 hm hd hc, rfl⟩

/-- Every next state that a word makes is the error state of a code other than OK, or the success response of its
command. -/
theorem performWordUnder_answers {tb : Tables} {w : Word} {s t : State} (h : performWordUnder tb w s = .next t) :
    (∃ e, e ≠ .ok ∧ t = raiseError e s) ∨
      ∃ i x u, decode w = .command i ∧ Succeeds tb s i x u ∧ t = respond .ok x.isSome x u := by
  obtain ⟨i, hw, h⟩ | ⟨y, -, rfl⟩ := performWordUnder_cases h
  · obtain ⟨hf, rfl⟩ | ⟨x, u, hu, rfl⟩ := execUnder_cases h
    · exact .inl ⟨_, hf, rfl⟩
    · exact .inr ⟨i, x, u, hw, hu, rfl⟩
  · exact .inl ⟨.illegalCmd, by decide, rfl⟩

theorem performWord_answers {w : Word} {s t : State} (h : performWord w s = .next t) :
    (∃ e, e ≠ .ok ∧ t = raiseError e s) ∨
      ∃ i x u, decode w = .command i ∧ Succeeds tables s i x u ∧ t = respond .ok x.isSome x u :=
  performWordUnder_answers (performWord_eq ▸ h)

end Sys2Proof.Machine
end

section
/-! SUPPORT. What the register writes of a successful command leave unchanged: the frame of each register group. -/

namespace Sys2Proof.Machine

variable {tb : Tables} {s u : State} {i : Instr} {x : Option Block}

/-- Register writes touch no field of the answer: STICKY_ERR, the host's events, the responses, the free value. -/
theorem Succeeds.answer_frame (h : Succeeds tb s i x u) :
    u.stickyErr = s.stickyErr ∧ u.host = s.host ∧ u.responses = s.responses ∧ u.freeCount = s.freeCount := by
  cases h <;> exact ⟨rfl, rfl, rfl, rfl⟩

/-- Only LDKEY, outside a session, writes the key registers. -/
theorem Succeeds.sameKey_or_ldkey (h : Succeeds tb s i x u) :
    sameKey s u ∨ ∃ k, i = .ldkey k ∧ s.msgActive = false ∧ u.keyValid = true := by
  cases h with
  | ldkey k ha => exact .inr ⟨k, rfl, ha, rfl⟩
  | _ => exact .inl ⟨rfl, rfl, rfl, rfl⟩

/-- Only LDIV writes the IV registers. -/
theorem Succeeds.sameIv_or_ldiv (h : Succeeds tb s i x u) : sameIv s u ∨ ∃ v, i = .ldiv v ∧ u.ivValid = true := by
  cases h with
  | ldiv v => exact .inr ⟨v, rfl, rfl⟩
  | _ => exact .inl ⟨rfl, rfl⟩

/-- Only MSGBEGIN cbc and MSGBLK in CBC write CHAIN (10_state.md R26). -/
theorem Succeeds.chain_eq (h : Succeeds tb s i x u) (hblk : ∀ b, i = .msgblk b → s.msgMode = .ecb)
    (hbegin : ∀ d n, i ≠ .msgbegin .cbc d n) : u.chain = s.chain := by
  cases h with
  | msgbeginCbc d => exact absurd rfl (hbegin d _)
  | msgblkCbcEnc b _ _ _ hm | msgblkCbcDec b _ _ _ hm => simp [hblk b rfl] at hm
  | _ => rfl

/-- MSGBLK in CBC leaves the ciphertext block in CHAIN: its data when encrypting, its operand when decrypting. -/
theorem Succeeds.chain_of_msgblk_cbc {b : Block} (h : Succeeds tb s (.msgblk b) x u) (hm : s.msgMode = .cbc) :
    u.chain = if s.msgDir = .enc then x else some b := by
  cases h with
  | msgblkEcbEnc _ _ _ _ he | msgblkEcbDec _ _ _ _ he => simp [hm] at he
  | msgblkCbcEnc _ _ _ _ _ hd | msgblkCbcDec _ _ _ _ _ hd => simp [hd]

/-- The commands that return data (10_state.md R31). -/
theorem Succeeds.isSome_iff (h : Succeeds tb s i x u) :
    x.isSome = true ↔ i.op ∈ [Op.encb, Op.decb, Op.msgblk, Op.rdk1, Op.rdk2] := by
  cases h <;> simp [Instr.op]

/-- No command reads KEY: with another value in it the command succeeds with the same data and the same writes. -/
theorem Succeeds.with_key (h : Succeeds tb s i x u) (k : Option Key) :
    ∃ k', Succeeds tb { s with key := k } i x { u with key := k' } := by
  cases h with
  | nop => exact ⟨k, .nop⟩
  | ldkey k' ha => exact ⟨some k', .ldkey k' ha⟩
  | encb b hk h1 h2 => exact ⟨k, .encb b hk h1 h2⟩
  | decb b hk h1 h2 => exact ⟨k, .decb b hk h1 h2⟩
  | ldiv v => exact ⟨k, .ldiv v⟩
  | msgbeginEcb d ha hk hn => exact ⟨k, .msgbeginEcb d ha hk hn⟩
  | msgbeginCbc d ha hk hn hi hv => exact ⟨k, .msgbeginCbc d ha hk hn hi hv⟩
  | msgblkEcbEnc b ha h1 h2 hm hd => exact ⟨k, .msgblkEcbEnc b ha h1 h2 hm hd⟩
  | msgblkEcbDec b ha h1 h2 hm hd => exact ⟨k, .msgblkEcbDec b ha h1 h2 hm hd⟩
  | msgblkCbcEnc b ha h1 h2 hm hd hc => exact ⟨k, .msgblkCbcEnc b ha h1 h2 hm hd hc⟩
  | msgblkCbcDec b ha h1 h2 hm hd hc => exact ⟨k, .msgblkCbcDec b ha h1 h2 hm hd hc⟩
  | msgabort => exact ⟨k, .msgabort⟩
  | rdk1 hk h1 => exact ⟨k, .rdk1 hk h1⟩
  | rdk2 hk h2 => exact ⟨k, .rdk2 hk h2⟩

end Sys2Proof.Machine
end

section
/-! SUPPORT. The invariants of 10_state.md R38: every register write keeps those about the registers, every answer
restores those about the answer, and under them every command is answered. -/

namespace Sys2Proof.Machine

/-- The invariants R38 (a) to (d), which speak of no register of the answer. -/
abbrev registersInv (tb : Tables) (s : State) : Prop :=
  keyInv tb s ∧ s.ivValid = s.iv.isSome ∧ activeInv s ∧ (s.msgActive = false → s.blkLeft = 0)

theorem invUnder_registers {tb : Tables} {s : State} (h : s.InvUnder tb) : registersInv tb s := by
  obtain ⟨hkey, hiv, hactive, hleft, -⟩ := h
  exact ⟨hkey, hiv, hactive, hleft⟩

/-- A success response: the data is valid exactly when there is some, and LAST_ERR is OK. -/
theorem respond_inv {tb : Tables} {u : State} (h : registersInv tb u) (x : Option Block) :
    (respond .ok x.isSome x u).InvUnder tb := by
  obtain ⟨hkey, hiv, hactive, hleft⟩ := h
  exact ⟨hkey, hiv, hactive, hleft, rfl, fun hne => absurd rfl hne⟩

/-- An error response: no data, and STICKY_ERR is set. -/
theorem raiseError_inv {tb : Tables} {s : State} (h : registersInv tb s) (e : ErrCode) :
    (raiseError e s).InvUnder tb := by
  obtain ⟨hkey, hiv, hactive, hleft⟩ := h
  exact ⟨hkey, hiv, hactive, hleft, rfl, fun _ => rfl⟩

theorem toReset_inv (tb : Tables) (s : State) : (toReset s).InvUnder tb := by
  simp [State.InvUnder, keyInv, activeInv]

section
variable {tb : Tables} {s : State} (h : registersInv tb s)
include h

theorem loadKey_registersInv (k : Key) : registersInv tb (loadKey tb k s) := by
  obtain ⟨-, hiv, hactive, hleft⟩ := h
  refine ⟨⟨rfl, rfl, rfl⟩, hiv, fun ha => ?_, hleft⟩
  obtain ⟨-, hrest⟩ := hactive ha
  exact ⟨rfl, hrest⟩

theorem loadIv_registersInv (v : Block) : registersInv tb (loadIv v s) := by
  obtain ⟨hkey, -, hactive, hleft⟩ := h
  exact ⟨hkey, rfl, hactive, hleft⟩

theorem setChain_registersInv (c : Block) : registersInv tb (setChain c s) := by
  obtain ⟨hkey, hiv, hactive, hleft⟩ := h
  refine ⟨hkey, hiv, fun ha => ?_, hleft⟩
  obtain ⟨hk, h1, h2, -⟩ := hactive ha
  exact ⟨hk, h1, h2, fun _ => rfl⟩

theorem endSession_registersInv : registersInv tb (endSession s) := by
  obtain ⟨hkey, hiv, -, -⟩ := h
  exact ⟨hkey, hiv, fun ha => by simp at ha, fun _ => rfl⟩

/-- One block fewer: the session stays active exactly while blocks are left. -/
theorem countBlock_registersInv (ha : s.msgActive = true) : registersInv tb (countBlock s) := by
  obtain ⟨hkey, hiv, hactive, -⟩ := h
  obtain ⟨hk, -, -, hc⟩ := hactive ha
  by_cases hz : s.blkLeft - 1 = 0
  · have hend : (countBlock s).msgActive = false := if_pos hz
    exact ⟨hkey, hiv, fun ha' => (nomatch hend.symm.trans ha'), fun _ => hz⟩
  · have hgoes : (countBlock s).msgActive = true := (if_neg hz).trans ha
    refine ⟨hkey, hiv, fun _ => ⟨hk, ?_, ?_, hc⟩, fun ha' => (nomatch hgoes.symm.trans ha')⟩
    all_goals rw [countBlock_blkLeft]; bv_omega

end

/-- A whole number of blocks below 2^13: a message length in bits divided by 8 loses nothing in BLK_LEFT. -/
theorem toNat_blocks (n : BitVec 16) : (BitVec.ofNat 13 (n.toNat / 8)).toNat = n.toNat / 8 := by
  rw [BitVec.toNat_ofNat]; omega

/-- A session begun in ECB, or in CBC with the chain loaded, satisfies R38 (c) and (d). -/
theorem beginSession_registersInv {tb : Tables} {s : State} (h : registersInv tb s) {m : Mode} (d : Dir) {n : BitVec 16}
    (hk : s.keyValid = true) (hn : n.toNat % 8 = 0) (hc : m = .cbc → s.chain.isSome = true) :
    registersInv tb (beginSession m d n s) := by
  obtain ⟨hkey, hiv, -, -⟩ := h
  refine ⟨hkey, hiv, fun ha => ⟨hk, ?_, ?_, hc⟩, fun ha => ?_⟩
  · have hne : n ≠ 0 := by simpa using ha
    rw [beginSession_blkLeft, toNat_blocks]
    bv_omega
  · rw [beginSession_blkLeft, toNat_blocks]
    omega
  · have hz : n = 0 := by simpa using ha
    simp [hz]

/-- The register writes of every command keep the invariants about the registers. -/
theorem Succeeds.keeps_registersInv {tb : Tables} {s u : State} {i : Instr} {x : Option Block} (hu : Succeeds tb s i x u)
    (h : registersInv tb s) : registersInv tb u := by
  cases hu with
  | nop | encb | decb | rdk1 | rdk2 => exact h
  | ldkey k ha => exact loadKey_registersInv h k
  | ldiv v => exact loadIv_registersInv h v
  | msgabort => exact endSession_registersInv h
  | msgbeginEcb d ha hk hn => exact beginSession_registersInv h d hk hn (by simp)
  | msgbeginCbc d ha hk hn hi hv =>
    exact beginSession_registersInv (setChain_registersInv h _) d hk hn (fun _ => rfl)
  | msgblkEcbEnc b ha | msgblkEcbDec b ha => exact countBlock_registersInv h ha
  | msgblkCbcEnc b ha | msgblkCbcDec b ha => exact countBlock_registersInv (setChain_registersInv h _) ha

/-- Performing any word keeps the invariants. -/
theorem performWordUnder_inv {tb : Tables} {w : Word} {s t : State} (hs : registersInv tb s)
    (h : performWordUnder tb w s = .next t) : t.InvUnder tb := by
  obtain ⟨e, -, rfl⟩ | ⟨i, x, u, -, hu, rfl⟩ := performWordUnder_answers h
  · exact raiseError_inv hs e
  · exact respond_inv (hu.keeps_registersInv hs) x

/-- Every step keeps the invariants, on every host event. -/
theorem stepUnder_inv {tb : Tables} {s t : State} (hs : s.InvUnder tb) (h : stepUnder tb s = .next t) :
    t.InvUnder tb := by
  obtain ⟨-, rfl⟩ | ⟨w, rest, -, h⟩ | ⟨p, rest, -, rfl⟩ := stepUnder_cases h
  · exact hs
  · have htake : registersInv tb (takeEvent rest s) := invUnder_registers hs
    exact performWordUnder_inv htake h
  · exact toReset_inv tb _

/-- Under R38 (a) a valid key means that both subkeys are held. -/
theorem subkeys_held {tb : Tables} {s : State} (h : keyInv tb s) (hk : s.keyValid = true) :
    (∃ a, s.k1 = some a) ∧ ∃ b, s.k2 = some b := by
  obtain ⟨hvalid, h1, h2⟩ := h
  obtain ⟨k, hkey⟩ := Option.isSome_iff_exists.mp (hvalid ▸ hk)
  exact ⟨⟨_, by rw [h1, hkey]; rfl⟩, _, by rw [h2, hkey]; rfl⟩

/-- Under the invariants a MSGBLK in a session succeeds: the subkeys and, in CBC, the chain value are held. -/
theorem msgblk_succeeds {tb : Tables} {s : State} (h : registersInv tb s) (ha : s.msgActive = true) (b : Block) :
    ∃ x u, Succeeds tb s (.msgblk b) x u := by
  obtain ⟨hkey, -, hactive, -⟩ := h
  obtain ⟨hk, -, -, hchain⟩ := hactive ha
  obtain ⟨⟨_, h1⟩, _, h2⟩ := subkeys_held hkey hk
  cases hm : s.msgMode with
  | ecb =>
    cases hd : s.msgDir with
    | enc => exact ⟨_, _, .msgblkEcbEnc b ha h1 h2 hm hd⟩
    | dec => exact ⟨_, _, .msgblkEcbDec b ha h1 h2 hm hd⟩
  | cbc =>
    obtain ⟨c, hc⟩ := Option.isSome_iff_exists.mp (hchain hm)
    cases hd : s.msgDir with
    | enc => exact ⟨_, _, .msgblkCbcEnc b ha h1 h2 hm hd hc⟩
    | dec => exact ⟨_, _, .msgblkCbcDec b ha h1 h2 hm hd hc⟩

/-- Under the invariants a command without an error succeeds: every register that it reads holds a value. -/
theorem succeeds_of_firstError_ok {tb : Tables} {i : Instr} {s : State} (h : registersInv tb s)
    (hf : firstError i s = .ok) : ∃ x u, Succeeds tb s i x u := by
  obtain ⟨hkey, hiv, -⟩ := id h
  have held := subkeys_held hkey
  cases i with
  | nop => exact ⟨_, _, .nop⟩
  | ldiv v => exact ⟨_, _, .ldiv v⟩
  | msgabort => exact ⟨_, _, .msgabort⟩
  | ldkey k => exact ⟨_, _, .ldkey k (by simpa [firstError] using hf)⟩
  | encb b =>
    have hk : s.keyValid = true := by simpa [firstError] using hf
    obtain ⟨⟨_, h1⟩, _, h2⟩ := held hk
    exact ⟨_, _, .encb b hk h1 h2⟩
  | decb b =>
    have hk : s.keyValid = true := by simpa [firstError] using hf
    obtain ⟨⟨_, h1⟩, _, h2⟩ := held hk
    exact ⟨_, _, .decb b hk h1 h2⟩
  | rdk1 =>
    have hk : s.keyValid = true := by simpa [firstError] using hf
    obtain ⟨⟨_, h1⟩, -⟩ := held hk
    exact ⟨_, _, .rdk1 hk h1⟩
  | rdk2 =>
    have hk : s.keyValid = true := by simpa [firstError] using hf
    obtain ⟨-, _, h2⟩ := held hk
    exact ⟨_, _, .rdk2 hk h2⟩
  | msgblk b => exact msgblk_succeeds h (by simpa [firstError] using hf) b
  | msgbegin m d n =>
    obtain ⟨ha, hk, hi, hn⟩ := firstError_msgbegin_ok hf
    cases m with
    | ecb => exact ⟨_, _, .msgbeginEcb d ha hk hn⟩
    | cbc =>
      obtain ⟨v, hv⟩ := Option.isSome_iff_exists.mp (hiv ▸ hi rfl)
      exact ⟨_, _, .msgbeginCbc d ha hk hn (hi rfl) hv⟩

/-- Under the invariants every command is answered: by its first error, or by success. -/
theorem execUnder_total {tb : Tables} {s : State} (h : registersInv tb s) (i : Instr) :
    ∃ t, execUnder tb i s = .next t := by
  by_cases hf : firstError i s = .ok
  · obtain ⟨x, u, hu⟩ := succeeds_of_firstError_ok h hf
    exact ⟨_, hu.execUnder_eq⟩
  · exact ⟨_, execUnder_of_firstError tb hf⟩

theorem performWordUnder_total {tb : Tables} {s : State} (h : registersInv tb s) (w : Word) :
    ∃ t, performWordUnder tb w s = .next t := by
  unfold performWordUnder performBy
  split
  · exact execUnder_total h _
  · exact ⟨_, rfl⟩

end Sys2Proof.Machine
end

section
/-! SUPPORT. What performing a word does to the key, the IV and the answer, from the frames of a successful command. -/

namespace Sys2Proof.Machine

/-- Performing a word writes the key registers only by LDKEY outside a session, and never clears KEY_VALID. -/
theorem performWord_key {w : Word} {s t : State} (h : performWord w s = .next t) :
    sameKey s t ∨ ∃ k, decode w = .command (.ldkey k) ∧ s.msgActive = false ∧ t.keyValid = true := by
  obtain ⟨e, -, rfl⟩ | ⟨i, x, u, hw, hu, rfl⟩ := performWord_answers h
  · exact .inl (sameKey_refl s)
  · obtain hsame | ⟨k, rfl, ha, hk⟩ := hu.sameKey_or_ldkey
    · exact .inl hsame
    · exact .inr ⟨k, hw, ha, hk⟩

/-- Performing a word writes the IV registers only by LDIV, and never clears IV_VALID. -/
theorem performWord_iv {w : Word} {s t : State} (h : performWord w s = .next t) :
    sameIv s t ∨ ∃ v, decode w = .command (.ldiv v) ∧ t.ivValid = true := by
  obtain ⟨e, -, rfl⟩ | ⟨i, x, u, hw, hu, rfl⟩ := performWord_answers h
  · exact .inl (sameIv_refl s)
  · obtain hsame | ⟨v, rfl, hv⟩ := hu.sameIv_or_ldiv
    · exact .inl hsame
    · exact .inr ⟨v, hw, hv⟩

/-- A step writes the key registers only by LDKEY or reset. -/
theorem step_key {s t : State} (h : step s = .next t) :
    sameKey s t ∨
      (∃ w rest k, s.host = .command w :: rest ∧ decode w = .command (.ldkey k) ∧ t.keyValid = true) ∨
      ∃ p rest, s.host = .reset p :: rest := by
  obtain ⟨-, rfl⟩ | ⟨w, rest, hs, h⟩ | ⟨p, rest, hs, -⟩ := step_cases h
  · exact .inl (sameKey_refl s)
  · obtain hsame | ⟨k, hw, -, hk⟩ := performWord_key h
    · exact .inl hsame
    · exact .inr (.inl ⟨w, rest, k, hs, hw, hk⟩)
  · exact .inr (.inr ⟨p, rest, hs⟩)

/-- A step writes the IV registers only by LDIV or reset. -/
theorem step_iv {s t : State} (h : step s = .next t) :
    sameIv s t ∨
      (∃ w rest v, s.host = .command w :: rest ∧ decode w = .command (.ldiv v) ∧ t.ivValid = true) ∨
      ∃ p rest, s.host = .reset p :: rest := by
  obtain ⟨-, rfl⟩ | ⟨w, rest, hs, h⟩ | ⟨p, rest, hs, -⟩ := step_cases h
  · exact .inl (sameIv_refl s)
  · obtain hsame | ⟨v, hw, hv⟩ := performWord_iv h
    · exact .inl hsame
    · exact .inr (.inl ⟨w, rest, v, hs, hw, hv⟩)
  · exact .inr (.inr ⟨p, rest, hs⟩)

/-- KEY_VALID is cleared only by reset. -/
theorem step_clears_keyValid {s t : State} (h : step s = .next t) (hs : s.keyValid = true) (ht : t.keyValid = false) :
    ∃ p rest, s.host = .reset p :: rest := by
  obtain ⟨-, -, -, hsame⟩ | ⟨w, rest, k, -, -, hk⟩ | hreset := step_key h
  · simp [hsame, hs] at ht
  · simp [hk] at ht
  · exact hreset

/-- IV_VALID is cleared only by reset. -/
theorem step_clears_ivValid {s t : State} (h : step s = .next t) (hs : s.ivValid = true) (ht : t.ivValid = false) :
    ∃ p rest, s.host = .reset p :: rest := by
  obtain ⟨-, hsame⟩ | ⟨w, rest, v, -, -, hv⟩ | hreset := step_iv h
  · simp [hsame, hs] at ht
  · simp [hv] at ht
  · exact hreset

/-- Performing a word sets STICKY_ERR when it fails and keeps it when it succeeds (60_exceptions.md R222). -/
theorem performWord_stickyErr {w : Word} {s t : State} (h : performWord w s = .next t) :
    (t.lastErr ≠ 0 ∧ t.stickyErr = true) ∨ (t.lastErr = 0 ∧ t.stickyErr = s.stickyErr) := by
  obtain ⟨e, he, rfl⟩ | ⟨i, x, u, -, hu, rfl⟩ := performWord_answers h
  · exact .inl ⟨errBits_eq_zero.not.mpr he, rfl⟩
  · obtain ⟨hsticky, -⟩ := hu.answer_frame
    exact .inr ⟨rfl, hsticky⟩

theorem performWord_keeps_stickyErr {w : Word} {s t : State} (h : performWord w s = .next t) (hs : s.stickyErr = true) :
    t.stickyErr = true := by
  obtain ⟨-, ht⟩ | ⟨-, ht⟩ := performWord_stickyErr h
  · exact ht
  · rw [ht, hs]

/-- A step that serves a reset event answers the reset state. -/
theorem step_reset {s t : State} {p : Option Word} {rest : List HostEvent} (hs : s.host = .reset p :: rest)
    (h : step s = .next t) : t = toReset (takeEvent rest s) := by
  rw [step_serve hs] at h
  simpa [serve] using h.symm

/-- An illegal word answers ILLEGAL_CMD. -/
theorem performWord_illegal {w : Word} {y : Illegal} {s : State} (hw : decode w = .illegal y) :
    performWord w s = .next (raiseError .illegalCmd s) := by
  simp [performWord, performBy, hw, performIllegal, raised]

/-- The first error of a command does not depend on KEY. -/
theorem firstError_with_key (i : Instr) (s : State) (k : Option Key) :
    firstError i { s with key := k } = firstError i s := by
  cases i <;> rfl

/-- The answer to a word does not depend on KEY: with another value in it, the next state is the same but for KEY. -/
theorem performWord_with_key {w : Word} {s t : State} (h : performWord w s = .next t) (k : Option Key) :
    ∃ k', performWord w { s with key := k } = .next { t with key := k' } := by
  rw [performWord_eq] at h ⊢
  unfold performWordUnder performBy at h ⊢
  split at h
  next i _ =>
    obtain ⟨hf, rfl⟩ | ⟨x, u, hu, rfl⟩ := execUnder_cases h
    · rw [← firstError_with_key i s k] at hf
      refine ⟨k, ?_⟩
      rw [execUnder_of_firstError tables hf, firstError_with_key]
      rfl
    · obtain ⟨k', hu'⟩ := hu.with_key k
      exact ⟨k', hu'.execUnder_eq⟩
  next =>
    obtain rfl := raised_next.mp h
    exact ⟨k, rfl⟩

/-- K1 is read first: without it no subkey is used. -/
theorem withSubkeys_of_k1_none {s : State} (h1 : s.k1 = none) (f : Block → Block → Result) :
    withSubkeys s f = .fault (.readOfNone .k1) := by
  simp [withSubkeys, h1]

theorem withSubkeys_of_k2_none {s : State} (h1 : s.k1 ≠ none) (h2 : s.k2 = none) (f : Block → Block → Result) :
    withSubkeys s f = .fault (.readOfNone .k2) := by
  obtain ⟨a, h1⟩ := Option.ne_none_iff_exists'.mp h1
  simp [withSubkeys, h1, h2]

/-- MSGBLK in CBC reads CHAIN in both directions. -/
theorem execMsgblk_of_chain_none {s : State} (b : Block) (ha : s.msgActive = true) (h1 : s.k1 ≠ none) (h2 : s.k2 ≠ none)
    (hm : s.msgMode = .cbc) (hc : s.chain = none) : execMsgblk b s = .fault (.readOfNone .chain) := by
  obtain ⟨k1, h1⟩ := Option.ne_none_iff_exists'.mp h1
  obtain ⟨k2, h2⟩ := Option.ne_none_iff_exists'.mp h2
  cases hd : s.msgDir <;> simp [execMsgblk, msgblkUnder, ha, withSubkeys_some h1 h2, hm, hd, hc]

end Sys2Proof.Machine
end

section
/-! SUPPORT. STATUS bit by bit (10_state.md R32). -/

namespace Sys2Proof.Machine

theorem dir_bit_eq (d : Dir) : d.bit = decide (d = .dec) := by cases d <;> rfl

theorem getLsbD_status (s : State) (i : Nat) : (status s).getLsbD i =
    if i < 1 then s.keyValid else if i < 2 then s.ivValid else if i < 3 then s.msgActive
    else if i < 4 then s.msgMode.bit else if i < 5 then s.msgDir.bit else if i < 6 then s.stickyErr
    else if i < 8 then false else if i < 12 then s.lastErr.getLsbD (i - 8) else false := by
  simp only [status, BitVec.getLsbD_append]
  by_cases hi : i < 12
  · interval_cases i <;> simp
  · simp (disch := omega) only [if_neg, BitVec.getLsbD_zero]

end Sys2Proof.Machine
end

section
/-! PROOFS. The statements about the state (10_state.md). -/

namespace Sys2Proof.Machine

/-- Settles O13: register writes keep R38 (a) to (d), and every answer restores (e) and (f). -/
theorem stepKeepsTheInvariants : Obligations.StepKeepsTheInvariants :=
  ⟨fun _ _ hs h => stepUnder_inv hs (step_eq ▸ h), fun _ _ _ hs h => stepUnder_inv hs h⟩

/-- Settles O14: a command raises its first error or succeeds, for R38 gives a value to every register it reads. -/
theorem everyWordIsAnsweredUnderTheInvariants : Obligations.EveryWordIsAnsweredUnderTheInvariants :=
  ⟨fun w _ hs => performWord_eq ▸ performWordUnder_total (invUnder_registers hs) w,
    fun _ w _ hs => performWordUnder_total (invUnder_registers hs) w⟩

/-- Settles O16: only LDKEY writes the key registers, and a session refuses it. -/
theorem keyIsFixedDuringASession : Obligations.KeyIsFixedDuringASession := by
  intro w s t ha h
  obtain hsame | ⟨k, -, ha', -⟩ := performWord_key h
  · exact hsame
  · simp [ha] at ha'

/-- Settles O17: LDKEY and LDIV set the valid bit they touch, so only reset can clear one. -/
theorem keyAndIvChangeOnlyByTheirLoadOrReset : Obligations.KeyAndIvChangeOnlyByTheirLoadOrReset := by
  refine ⟨fun s t h => ?_, fun s t h => ?_, fun s t h hclear => ?_⟩
  · obtain hsame | ⟨w, rest, k, hs, hw, -⟩ | hreset := step_key h
    · exact .inl hsame
    · exact .inr (.inl ⟨w, rest, k, hs, hw⟩)
    · exact .inr (.inr hreset)
  · obtain hsame | ⟨w, rest, v, hs, hw, -⟩ | hreset := step_iv h
    · exact .inl hsame
    · exact .inr (.inl ⟨w, rest, v, hs, hw⟩)
    · exact .inr (.inr hreset)
  · obtain ⟨hs, ht⟩ | ⟨hs, ht⟩ := hclear
    · exact step_clears_keyValid h hs ht
    · exact step_clears_ivValid h hs ht

/-- Settles O18: an error keeps CHAIN, and of the successes only those in CBC write it. -/
theorem chainHoldsTheCiphertextInCbcOnly : Obligations.ChainHoldsTheCiphertextInCbcOnly := by
  refine ⟨fun i s t h hblk hbegin => ?_, fun b s t h hok hm => ?_⟩
  all_goals
    rw [exec_eq] at h
    obtain ⟨hf, rfl⟩ | ⟨x, u, hu, rfl⟩ := execUnder_cases h
  · rfl
  · exact hu.chain_eq hblk hbegin
  · exact absurd (errBits_eq_zero.mp hok) hf
  · exact hu.chain_of_msgblk_cbc hm

/-- Settles O24: an error sets STICKY_ERR, a success and an idle step keep it. -/
theorem stickyErrorIsClearedOnlyByReset : Obligations.StickyErrorIsClearedOnlyByReset := by
  refine ⟨fun w s t h hne => ?_, fun w s t h => performWord_keeps_stickyErr h, fun s t h hs ht => ?_,
    fun s t p rest hs h => ?_⟩
  · obtain ⟨-, ht⟩ | ⟨hz, -⟩ := performWord_stickyErr h
    · exact ht
    · exact absurd hz hne
  · obtain ⟨-, rfl⟩ | ⟨w, rest, -, h⟩ | ⟨p, rest, hp, -⟩ := step_cases h
    · simp [hs] at ht
    · simp [performWord_keeps_stickyErr h hs] at ht
    · exact ⟨p, rest, hp⟩
  · rw [step_reset hs h]
    rfl

/-- Settles O25: an error response has no data, a success has data exactly for the five commands that return it. -/
theorem dataIsValidExactlyForDataCommands : Obligations.DataIsValidExactlyForDataCommands := by
  refine ⟨fun i s t h => ?_, fun w y s t hw h => ?_⟩
  · rw [exec_eq] at h
    obtain ⟨hf, rfl⟩ | ⟨x, u, hu, rfl⟩ := execUnder_cases h
    · have hne : errBits (firstError i s) ≠ 0 := errBits_eq_zero.not.mpr hf
      exact ⟨iff_of_false (by simp) fun ⟨hz, _⟩ => hne hz, rfl⟩
    · simp [← hu.isSome_iff, errBits]
  · rw [performWord_illegal hw] at h
    cases h
    exact ⟨rfl, rfl⟩

/-- Settles O26: every answer ends in the one operation `respond`. -/
theorem eachCommandGivesOneResponse : Obligations.EachCommandGivesOneResponse := by
  intro w s t h
  obtain ⟨e, -, rfl⟩ | ⟨i, x, u, -, hu, rfl⟩ := performWord_answers h
  · obtain ⟨hgives, -⟩ := raiseError_failsWith e s
    exact hgives
  · obtain ⟨hsticky, hhost, hresponses, -⟩ := hu.answer_frame
    obtain ⟨hgives, -⟩ := respond_succeedsWith (x := x) hresponses hhost hsticky
    exact hgives

/-- Settles O27: with another KEY the next state differs in KEY alone, and no port shows KEY. -/
theorem keyRegisterIsNeverReadable : Obligations.KeyRegisterIsNeverReadable := by
  intro w s t k h
  obtain ⟨k', hu⟩ := performWord_with_key h k
  exact ⟨{ t with key := k' }, hu, rfl, rfl, rfl⟩

/-- Settles O11: the reset state is a literal, read field by field. -/
theorem resetValuesOfEveryRegister : Obligations.ResetValuesOfEveryRegister := by
  exact ⟨by decide, by decide, rfl, rfl⟩

/-- Settles O12: with no key, no IV and no session the invariants ask for nothing that TABLES could change. -/
theorem resetMeetsTheInvariants : Obligations.ResetMeetsTheInvariants := by
  have h : ∀ tb : Tables, State.reset.InvUnder tb := fun tb => toReset_inv tb State.reset
  exact ⟨h tables, h⟩

/-- Settles O15: each command past its checks reads K1, then K2, then CHAIN, and MSGBEGIN cbc reads IV. -/
theorem readOfNoneFaults : Obligations.ReadOfNoneFaults := by
  refine ⟨fun s hk h1 => ?_, fun s hk h2 => ?_, fun s b hk h1 => ⟨?_, ?_⟩, fun s b hk h1 h2 => ⟨?_, ?_⟩,
    fun s d n ha hk hi hv hn => ?_, fun s b ha h1 => ?_, fun s b ha h1 h2 => ?_,
    fun s b ha h1 h2 hm hc => execMsgblk_of_chain_none b ha h1 h2 hm hc⟩
  · simp [exec, execRdk1, hk, h1]
  · simp [exec, execRdk2, hk, h2]
  · simp [exec, execEncb, encbUnder, hk, withSubkeys_of_k1_none h1]
  · simp [exec, execDecb, decbUnder, hk, withSubkeys_of_k1_none h1]
  · simp [exec, execEncb, encbUnder, hk, withSubkeys_of_k2_none h1 h2]
  · simp [exec, execDecb, decbUnder, hk, withSubkeys_of_k2_none h1 h2]
  · simp [exec, execMsgbegin, ha, hk, hi, hv, hn]
  · simp [exec, execMsgblk, msgblkUnder, ha, withSubkeys_of_k1_none h1]
  · simp [exec, execMsgblk, msgblkUnder, ha, withSubkeys_of_k2_none h1 h2]

/-- Settles O29: each clause is one case of `getLsbD_status`. -/
theorem statusShowsTheFlags : Obligations.StatusShowsTheFlags := by
  intro s
  refine ⟨?_, ?_, ?_, ?_, ?_, ?_, ?_, ?_, ?_, rfl, rfl⟩
  · rw [getLsbD_status]; rfl
  · rw [getLsbD_status]; rfl
  · rw [getLsbD_status]; rfl
  · rw [getLsbD_status, ← mode_bit_eq]; rfl
  · rw [getLsbD_status, ← dir_bit_eq]; rfl
  · rw [getLsbD_status]; rfl
  all_goals
    refine BitVec.eq_of_getLsbD_eq fun i hi => ?_
    rw [BitVec.getLsbD_extractLsb', getLsbD_status]
  · simp (disch := omega) [if_neg, hi]
  · simp (disch := omega) [if_neg, if_pos, hi]
  · simp (disch := omega) [if_neg, hi]

/-- Settles O30: valid data hides the free value of the port. -/
theorem responsePortsShowTheResponse : Obligations.ResponsePortsShowTheResponse := by
  refine ⟨fun s => ⟨rfl, rfl⟩, fun s d hvalid hdata => ?_⟩
  simp [ports, rspDataPort, hvalid, hdata]

end Sys2Proof.Machine
end

section
/-! SUPPORT. A command given again right after its own answer (20_memory.md R58). -/

namespace Sys2Proof.Machine

/-- The checks of R223 read no register of the answer, so an error leaves the first error of every command as it is. -/
@[simp] theorem firstError_raiseError (i : Instr) (e : ErrCode) (s : State) :
    firstError i (raiseError e s) = firstError i s := by
  cases i <;> rfl

/-- The same response given again leaves all fifteen registers. -/
theorem sameRegisters_respond_respond (e : ErrCode) (d : Bool) (x : Option Block) (s : State) :
    sameRegisters (respond e d x s) (respond e d x (respond e d x s)) :=
  ⟨sameKey_refl _, sameIv_refl _, sameSession_refl _, rfl, rfl, rfl, rfl⟩

/-- The same error raised again leaves all fifteen registers. -/
theorem sameRegisters_raiseError_raiseError (e : ErrCode) (s : State) :
    sameRegisters (raiseError e s) (raiseError e (raiseError e s)) :=
  ⟨sameKey_refl _, sameIv_refl _, sameSession_refl _, rfl, rfl, rfl, rfl⟩

/-- The six commands of R58 succeed again after their own success, with the same data and no new register write: LDKEY,
LDIV and MSGABORT write constants, and the others write nothing. -/
theorem Succeeds.repeated {tb : Tables} {s u : State} {i : Instr} {x : Option Block} (h : Succeeds tb s i x u)
    (hop : i.op ∈ [Op.ldkey, Op.ldiv, Op.nop, Op.msgabort, Op.rdk1, Op.rdk2]) :
    Succeeds tb (respond .ok x.isSome x u) i x (respond .ok x.isSome x u) := by
  cases h with
  | nop => exact .nop
  | ldkey k ha => exact .ldkey k ha
  | ldiv v => exact .ldiv v
  | msgabort => exact .msgabort
  | rdk1 hk h1 => exact .rdk1 hk h1
  | rdk2 hk h2 => exact .rdk2 hk h2
  | _ => simp [Instr.op] at hop

end Sys2Proof.Machine
end

section
/-! PROOFS. The statement about repeated commands (20_memory.md). -/

namespace Sys2Proof.Machine

/-- Settles O28: a refused command meets the same first error again, a successful one repeats its own writes. -/
theorem repeatedCommandGivesTheSameRegisters : Obligations.RepeatedCommandGivesTheSameRegisters := by
  intro i s t hop h
  rw [exec_eq] at h ⊢
  obtain ⟨hf, rfl⟩ | ⟨x, u, hu, rfl⟩ := execUnder_cases h
  · have hagain : firstError i (raiseError (firstError i s) s) = firstError i s := firstError_raiseError i _ s
    refine ⟨_, execUnder_of_firstError tables (hagain.symm ▸ hf), ?_⟩
    rw [hagain]
    exact sameRegisters_raiseError_raiseError _ s
  · exact ⟨_, (hu.repeated hop).execUnder_eq, sameRegisters_respond_respond _ _ _ u⟩

end Sys2Proof.Machine
end

section
/-! SUPPORT. The decoder, said once (30_encoding.md R71 to R76): a word is a command exactly when it matches a row of the
opcode map, its opcode is then that row's, and its operands are its fields. -/

namespace Sys2Proof

/-- Every opcode has at most one row, so a row is found by its opcode. -/
theorem rowOf_opc {r : OpcodeRow} (hr : r ∈ opcodeMap) : rowOf r.opc = some r := by
  revert r; decide

/-- The opcodes without a row are 0xA to 0xF (R75). -/
theorem rowOf_eq_none_iff (opc : BitVec 4) : rowOf opc = none ↔ 10 ≤ opc.toNat := by
  revert opc; decide

theorem rowOf_eq_some_iff {opc : BitVec 4} {r : OpcodeRow} : rowOf opc = some r ↔ r ∈ opcodeMap ∧ r.opc = opc := by
  constructor
  · intro h
    exact ⟨List.mem_of_find?_eq_some h, by simpa using List.find?_some h⟩
  · rintro ⟨hr, rfl⟩
    exact rowOf_opc hr

/-- A word has the bits of a pattern wherever the mask is set. -/
theorem field_of_match {v : Nat} {w mask pattern : BitVec v} (h : w &&& mask = pattern) {n k : Nat}
    (hmask : mask.extractLsb' n k = BitVec.allOnes k) : w.extractLsb' n k = pattern.extractLsb' n k := by
  rw [← h, BitVec.extractLsb'_and, hmask, BitVec.and_allOnes]

/-- A word that matches a row has that row's opcode: every mask covers OPC. -/
theorem fieldOpc_of_match {w : Word} {r : OpcodeRow} (hr : r ∈ opcodeMap) (h : w &&& r.mask = r.pattern) :
    fieldOpc w = r.opc := by
  have hrow : r.mask.extractLsb' 28 4 = BitVec.allOnes 4 ∧ r.pattern.extractLsb' 28 4 = r.opc := by
    clear h; revert r; decide
  obtain ⟨hmask, hopc⟩ := hrow
  exact (field_of_match h hmask).trans hopc

/-- The decoder row by row (R71, R74). -/
theorem decode_eq_command_iff {w : Word} {i : Instr} :
    decode w = .command i ↔ ∃ r ∈ opcodeMap, w &&& r.mask = r.pattern ∧ withFields w r.op = i := by
  constructor
  · intro h
    unfold decode at h
    split at h
    · simp at h
    next r hrow =>
      obtain ⟨hr, -⟩ := rowOf_eq_some_iff.mp hrow
      split_ifs at h with hmatch
      exact ⟨r, hr, hmatch, by simpa using h⟩
  · rintro ⟨r, hr, hmatch, rfl⟩
    simp [decode, fieldOpc_of_match hr hmatch, rowOf_opc hr, hmatch]

/-- A word is no command exactly when it is an illegal word. -/
theorem illegal_iff {w : Word} : (∀ i, decode w ≠ .command i) ↔ ∃ y, decode w = .illegal y := by
  cases decode w <;> simp

/-- A row of the map is the only one for its command. -/
theorem row_eq_of_op_eq {r q : OpcodeRow} (hr : r ∈ opcodeMap) (hq : q ∈ opcodeMap) (h : r.op = q.op) : r = q := by
  have hop : ∀ r ∈ opcodeMap, ∀ q ∈ opcodeMap, r.op = q.op → r = q := by decide
  exact hop r hr q hq h

/-- No word matches two rows. -/
theorem row_eq_of_match {w : Word} {r q : OpcodeRow} (hr : r ∈ opcodeMap) (hq : q ∈ opcodeMap)
    (hwr : w &&& r.mask = r.pattern) (hwq : w &&& q.mask = q.pattern) : r = q := by
  have hopc : r.opc = q.opc := (fieldOpc_of_match hr hwr).symm.trans (fieldOpc_of_match hq hwq)
  simpa [hopc, rowOf_opc hq] using (rowOf_opc hr).symm

@[simp] theorem withFields_op (w : Word) (op : Op) : (withFields w op).op = op := by cases op <;> rfl

/-- The operands of a command are the fields of its word (R73). -/
theorem operands_of_decode {w : Word} {i : Instr} (h : decode w = .command i) : withFields w i.op = i := by
  obtain ⟨r, -, -, rfl⟩ := decode_eq_command_iff.mp h
  rw [withFields_op]

/-- The words of a row's command are those that match the row (R74). -/
theorem encodedAs_row {r : OpcodeRow} (hr : r ∈ opcodeMap) : Machine.encodedAs r.op r.pattern r.mask := by
  intro w
  constructor
  · rintro ⟨i, hi, hop⟩
    obtain ⟨q, hq, hmatch, rfl⟩ := decode_eq_command_iff.mp hi
    rw [withFields_op] at hop
    exact row_eq_of_op_eq hq hr hop ▸ hmatch
  · intro hmatch
    exact ⟨withFields w r.op, decode_eq_command_iff.mpr ⟨r, hr, hmatch, rfl⟩, withFields_op w r.op⟩

end Sys2Proof
end

section
/-! SUPPORT. Encoder and decoder undo each other (30_encoding.md R72 to R74). -/

namespace Sys2Proof

@[simp] theorem mode_bit_ofBit (b : Bool) : (Mode.ofBit b).bit = b := by cases b <;> rfl

@[simp] theorem dir_bit_ofBit (b : Bool) : (Dir.ofBit b).bit = b := by cases b <;> rfl

/-- The encoder puts every operand where the decoder reads it. -/
theorem withFields_encode (i : Instr) : withFields (encode i) i.op = i := by
  cases i with
  | nop | msgabort | rdk1 | rdk2 => rfl
  | ldkey key => exact congrArg Instr.ldkey BitVec.extractLsb'_append_eq_right
  | encb blk => exact congrArg Instr.encb BitVec.extractLsb'_append_eq_right
  | decb blk => exact congrArg Instr.decb BitVec.extractLsb'_append_eq_right
  | ldiv iv => exact congrArg Instr.ldiv BitVec.extractLsb'_append_eq_right
  | msgblk blk => exact congrArg Instr.msgblk BitVec.extractLsb'_append_eq_right
  | msgbegin mode dir len =>
    have hlen : fieldLen (encode (.msgbegin mode dir len)) = len := BitVec.extractLsb'_append_eq_right
    have hmode : fieldMode (encode (.msgbegin mode dir len)) = mode := by
      rw [fieldMode, BitVec.getLsbD_eq_getElem (by decide), getElem_encode_msgbegin]
      cases mode <;> cases dir <;> rfl
    have hdir : fieldDir (encode (.msgbegin mode dir len)) = dir := by
      rw [fieldDir, BitVec.getLsbD_eq_getElem (by decide), getElem_encode_msgbegin]
      cases mode <;> cases dir <;> rfl
    simp [Instr.op, withFields, hlen, hmode, hdir]

/-- The word of a command matches the row of the command. -/
theorem encode_matches_row (i : Instr) : ∃ r ∈ opcodeMap, encode i &&& r.mask = r.pattern ∧ r.op = i.op := by
  have h : Laws.EncodedForm.Statement i := by
    cases i with
    | nop => exact Laws.EncodedForm.nop
    | ldkey key => exact Laws.EncodedForm.ldkey key
    | encb blk => exact Laws.EncodedForm.encb blk
    | decb blk => exact Laws.EncodedForm.decb blk
    | ldiv iv => exact Laws.EncodedForm.ldiv iv
    | msgbegin mode dir len => exact Laws.EncodedForm.msgbegin mode dir len
    | msgblk blk => exact Laws.EncodedForm.msgblk blk
    | msgabort => exact Laws.EncodedForm.msgabort
    | rdk1 => exact Laws.EncodedForm.rdk1
    | rdk2 => exact Laws.EncodedForm.rdk2
  obtain ⟨r, hr, hop, -, hmatch⟩ := h
  exact ⟨r, hr, hmatch, hop⟩

@[simp] theorem decode_encode (i : Instr) : decode (encode i) = .command i := by
  obtain ⟨r, hr, hmatch, hop⟩ := encode_matches_row i
  exact decode_eq_command_iff.mpr ⟨r, hr, hmatch, by rw [hop, withFields_encode]⟩

/-- One bit of a word as a field. -/
theorem ofBool_getLsbD (w : Word) (n : Nat) : BitVec.ofBool (w.getLsbD n) = w.extractLsb' n 1 := by
  refine BitVec.eq_of_getLsbD_eq fun i hi => ?_
  obtain rfl : i = 0 := by omega
  simp

/-- A word that matches a row with no operand bits is the row's pattern. -/
theorem eq_of_full_match {w pattern : Word} (h : w &&& 0xFFFFFFFF = pattern) : pattern = w :=
  h.symm.trans BitVec.and_allOnes

/-- A word is what stands above a field at its low end, followed by that field. -/
theorem append_low_field {n k : Nat} {w mask pattern : BitVec (k + n)} {high : BitVec k} (h : w &&& mask = pattern)
    (hmask : mask.extractLsb' n k = BitVec.allOnes k) (hhigh : pattern.extractLsb' n k = high) :
    high ++ w.extractLsb' 0 n = w := by
  rw [← hhigh, ← field_of_match h hmask]
  exact BitVec.extractLsb'_append_extractLsb'

/-- A word that matches the row of MSGBEGIN is its fixed bits above DIR, MODE and LEN. -/
theorem append_msgbegin_fields {w : Word} (h : w &&& 0xFFFC0000 = 0x50000000) :
    encode (.msgbegin (fieldMode w) (fieldDir w) (fieldLen w)) = w := by
  have hhigh : w.extractLsb' 18 14 = 0x5#4 ++ 0#10 := field_of_match h (by decide)
  have hdir : w.extractLsb' 18 14 ++ w.extractLsb' 17 1 = w.extractLsb' 17 15 :=
    BitVec.extractLsb'_append_extractLsb'_eq_extractLsb' rfl
  have hmode : w.extractLsb' 17 15 ++ w.extractLsb' 16 1 = w.extractLsb' 16 16 :=
    BitVec.extractLsb'_append_extractLsb'_eq_extractLsb' rfl
  rw [encode, fieldDir, fieldMode, dir_bit_ofBit, mode_bit_ofBit, ofBool_getLsbD, ofBool_getLsbD, ← hhigh, hdir, hmode]
  exact BitVec.extractLsb'_append_extractLsb'

/-- A word that matches a row is the encoding of the row's command with the fields of the word. -/
theorem encode_withFields (w : Word) : ∀ r ∈ opcodeMap, w &&& r.mask = r.pattern → encode (withFields w r.op) = w := by
  simp only [opcodeMap, List.forall_mem_cons]
  refine ⟨eq_of_full_match, fun h => append_low_field (n := 10) h rfl rfl, fun h => append_low_field (n := 8) h rfl rfl,
    fun h => append_low_field (n := 8) h rfl rfl, fun h => append_low_field (n := 8) h rfl rfl, append_msgbegin_fields,
    fun h => append_low_field (n := 8) h rfl rfl, eq_of_full_match, eq_of_full_match, eq_of_full_match, ?_⟩
  simp

end Sys2Proof
end

section
/-! SUPPORT. The fields of a word and its illegal forms: reserved opcodes and reserved bits (30_encoding.md R73 to R76). -/

namespace Sys2Proof

theorem fieldOpc_toNat (w : Word) : (fieldOpc w).toNat = (w >>> 28).toNat := by
  rw [fieldOpc, BitVec.extractLsb'_toNat, BitVec.toNat_ushiftRight, Nat.shiftRight_eq_div_pow]
  omega

/-- Element 0 of a field at the low end of a word is the field's most significant bit (R73). -/
theorem element_low_field (w : Word) {n i : Nat} (hi : i < n) :
    Machine.element (w.extractLsb' 0 n) i = w.getLsbD (n - 1 - i) := by
  have hlow : n - 1 - i < n := by omega
  simp [Machine.element, BitVec.getMsbD, hi, hlow]

/-- A word with a reserved opcode is illegal (R75). -/
theorem decode_reserved_opcode {w : Word} (h : 10 ≤ (w >>> 28).toNat) : decode w = .illegal .reservedOpcode := by
  have hrow : rowOf (fieldOpc w) = none := (rowOf_eq_none_iff _).mpr (fieldOpc_toNat w ▸ h)
  simp [decode, hrow]

/-- Where a mask is all ones above its low bits, and the pattern is the word there and 0 below, the word matches exactly
when it is 0 under the low bits of the mask. -/
theorem match_iff_low_clear {k n : Nat} {w mask pattern reserved : BitVec (k + n)} {low : BitVec n}
    (hmask : mask = BitVec.allOnes k ++ low) (hpattern : pattern = w.extractLsb' n k ++ 0#n)
    (hreserved : reserved = 0#k ++ low) : w &&& mask = pattern ↔ w &&& reserved = 0#(k + n) := by
  obtain ⟨high, rest, rfl⟩ : ∃ high rest, w = high ++ rest := ⟨_, _, BitVec.extractLsb'_append_extractLsb'.symm⟩
  rw [hmask, hpattern, hreserved, BitVec.extractLsb'_append_eq_left, BitVec.and_append, BitVec.and_append,
    BitVec.and_allOnes, BitVec.and_zero, ← BitVec.zero_append_zero, BitVec.append_right_inj, BitVec.append_right_inj]

/-- A word with the opcode of a row matches the row exactly when no reserved bit of the row's format is set (R76). -/
theorem match_iff_reserved_bits_clear {w : Word} {r : OpcodeRow} (hr : r ∈ opcodeMap) (hopc : fieldOpc w = r.opc) :
    w &&& r.mask = r.pattern ↔ w &&& r.format.reserved = 0 := by
  have hrow : r.mask = BitVec.allOnes 4 ++ r.mask.extractLsb' 0 28 ∧ r.pattern = r.opc ++ 0#28 ∧
      r.format.reserved = 0#4 ++ r.mask.extractLsb' 0 28 := by
    clear hopc; revert r; decide
  obtain ⟨hmask, hpattern, hreserved⟩ := hrow
  rw [← hopc] at hpattern
  exact match_iff_low_clear (k := 4) (n := 28) hmask hpattern hreserved

/-- A word with the opcode of a row is no command exactly when it sets a reserved bit of the row's format. -/
theorem no_command_iff_of_row {w : Word} {r : OpcodeRow} (hr : r ∈ opcodeMap) (hopc : fieldOpc w = r.opc) :
    (∀ i, decode w ≠ .command i) ↔ w &&& r.format.reserved ≠ 0 := by
  refine Iff.trans ?_ (match_iff_reserved_bits_clear hr hopc).not
  by_cases hmatch : w &&& r.mask = r.pattern <;> simp [decode, hopc, rowOf_opc hr, hmatch]

/-- A word is no command exactly when its opcode is reserved or it sets a reserved bit of its opcode's format. -/
theorem no_command_iff (w : Word) : (∀ i, decode w ≠ .command i) ↔
    10 ≤ (w >>> 28).toNat ∨ ∃ r ∈ opcodeMap, r.opc.toNat = (w >>> 28).toNat ∧ w &&& r.format.reserved ≠ 0 := by
  rw [← fieldOpc_toNat]
  constructor
  · intro h
    cases hrow : rowOf (fieldOpc w) with
    | none => exact .inl ((rowOf_eq_none_iff _).mp hrow)
    | some r =>
      obtain ⟨hr, hopc⟩ := rowOf_eq_some_iff.mp hrow
      exact .inr ⟨r, hr, congrArg BitVec.toNat hopc, (no_command_iff_of_row hr hopc.symm).mp h⟩
  · rintro (hopc | ⟨r, hr, hopc, hset⟩)
    · simp [decode_reserved_opcode (fieldOpc_toNat w ▸ hopc)]
    · exact (no_command_iff_of_row hr (BitVec.eq_of_toNat_eq hopc.symm)).mpr hset

end Sys2Proof
end

section
/-! SUPPORT. The assembler on lines that meet R79 and on lines that break it (30_encoding.md). -/

namespace Sys2Proof.Machine

/-- A line that assembles to the encoding of a command decodes to that command. -/
theorem assemble_decodes {line : AsmLine} {i : Instr} (hwf : line.wf = true)
    (h : assemble line = if line.wf then some (encode i) else none) :
    ∃ w, assemble line = some w ∧ decode w = .command i :=
  ⟨encode i, by rw [h, if_pos hwf], decode_encode i⟩

theorem assemble_of_not_wf {line : AsmLine} (h : line.wf = false) : assemble line = none := by
  simp [assemble, h]

end Sys2Proof.Machine
end

section
/-! PROOFS. The statements about the encoding (30_encoding.md). -/

namespace Sys2Proof.Machine

/-- Settles O1: the word of a command matches the row of the command, and its fields are the operands. -/
theorem decodeOfEncodeIsTheCommand : Obligations.DecodeOfEncodeIsTheCommand := decode_encode

/-- Settles O2: outside its fields a word has the fixed bits of the row that it matches. -/
theorem legalWordIsTheEncodingOfItsCommand : Obligations.LegalWordIsTheEncodingOfItsCommand := by
  intro w i h
  obtain ⟨r, hr, hmatch, rfl⟩ := decode_eq_command_iff.mp h
  exact encode_withFields w r hr hmatch

/-- Settles O3: each clause about a row is `encodedAs_row`, and the opcode tells two rows apart. -/
theorem wordIsCommandExactlyWhenItMatchesItsRow : Obligations.WordIsCommandExactlyWhenItMatchesItsRow := by
  have hrows : ∀ r ∈ opcodeMap, encodedAs r.op r.pattern r.mask := fun _ => encodedAs_row
  simp only [opcodeMap, List.forall_mem_cons] at hrows
  obtain ⟨hnop, hldkey, hencb, hdecb, hldiv, hmsgbegin, hmsgblk, hmsgabort, hrdk1, hrdk2, -⟩ := hrows
  refine ⟨hnop, hldkey, hencb, hdecb, hldiv, hmsgbegin, hmsgblk, hmsgabort, hrdk1, hrdk2, rfl, fun w hopc => ?_,
    fun w r q => row_eq_of_match⟩
  exact illegal_iff.mpr ⟨_, decode_reserved_opcode hopc⟩

/-- Settles O4: a decoded command holds the fields of its word. -/
theorem operandFieldsAreTakenAsTheyStand : Obligations.OperandFieldsAreTakenAsTheyStand := by
  refine ⟨fun w k h => ?_, fun w b h => ?_, fun w m d n h => ?_, decode_encode (.ldkey 0b1010000010)⟩
  · obtain rfl : fieldKey10 w = k := Instr.ldkey.inj (operands_of_decode h)
    exact ⟨rfl, fun i hi => element_low_field w hi⟩
  · obtain rfl : fieldD8 w = b := by
      obtain h | h | h | h := h
      · exact Instr.encb.inj (operands_of_decode h)
      · exact Instr.decb.inj (operands_of_decode h)
      · exact Instr.ldiv.inj (operands_of_decode h)
      · exact Instr.msgblk.inj (operands_of_decode h)
    exact ⟨rfl, fun i hi => element_low_field w hi⟩
  · obtain ⟨rfl, rfl, rfl⟩ := Instr.msgbegin.inj (operands_of_decode h)
    exact ⟨rfl, rfl, rfl⟩

/-- Settles O5: a word without a command has no row or does not match its row, and then only `raiseError` acts. -/
theorem illegalWordAnswersIllegalCmdOnly : Obligations.IllegalWordAnswersIllegalCmdOnly := by
  refine ⟨fun w => ?_, fun w r hr hopc => ?_, fun w s h => ?_, ?_, ?_⟩
  · exact no_command_iff w
  · have hopc : fieldOpc w = r.opc := BitVec.eq_of_toNat_eq ((fieldOpc_toNat w).trans hopc.symm)
    exact (match_iff_reserved_bits_clear hr hopc).not.symm
  · obtain ⟨y, hy⟩ := illegal_iff.mp h
    exact ⟨_, performWord_illegal hy, raiseError_failsWith .illegalCmd s⟩
  · exact illegal_iff.mpr ⟨.reservedOpcode, by decide⟩
  · exact illegal_iff.mpr ⟨.reservedBits, by decide⟩

/-- Settles O6: each word is the encoding of its command. -/
theorem workedEncodingsDecode : Obligations.WorkedEncodingsDecode :=
  ⟨decode_encode .nop, decode_encode (.ldkey 0b1010000010), decode_encode (.encb 0b11010111),
    decode_encode (.decb 0b10101000), decode_encode (.ldiv 0b01010101), decode_encode (.msgbegin .cbc .enc 24),
    decode_encode (.msgbegin .ecb .dec 24), decode_encode (.msgblk 0b11010111), decode_encode .msgabort,
    decode_encode .rdk1, decode_encode .rdk2⟩

/-- Settles O7: a line with operands in range is encoded, and the decoder undoes the encoder. -/
theorem assembledMnemonicIsOneLegalWord : Obligations.AssembledMnemonicIsOneLegalWord := by
  refine ⟨assemble_decodes rfl rfl, assemble_decodes rfl rfl, assemble_decodes rfl rfl, assemble_decodes rfl rfl,
    fun l hl => assemble_decodes hl rfl, fun l hl => ⟨assemble_decodes hl rfl, assemble_decodes hl rfl,
      assemble_decodes hl rfl, assemble_decodes hl rfl⟩, fun m d n hn => ?_, fun v hv => ?_, fun n ds => beq_iff_eq,
    fun ds i h => ?_, fun n v hv => ⟨decide_eq_true hv, Nat.mod_eq_of_lt hv⟩, fun l hl => assemble_of_not_wf hl,
    fun l hl => ⟨assemble_of_not_wf hl, assemble_of_not_wf hl, assemble_of_not_wf hl, assemble_of_not_wf hl⟩,
    fun n v hv => decide_eq_false (Nat.not_lt.mpr hv), fun m d n hn => ?_, fun v hv => ?_, by decide⟩
  · obtain ⟨w, hw, hdecode⟩ := assemble_decodes (line := .msgbegin m d n) (decide_eq_true hn) rfl
    exact ⟨w, _, hw, hdecode, Nat.mod_eq_of_lt (Nat.lt_succ_of_le hn)⟩
  · exact ⟨BitVec.ofNat 32 v, if_pos (decide_eq_true hv), Nat.mod_eq_of_lt hv⟩
  · exact (element_ofElements _ _ h).trans (List.getD_eq_getElem ds false h)
  · exact assemble_of_not_wf (decide_eq_false (Nat.not_le.mpr hn))
  · exact assemble_of_not_wf (decide_eq_false (Nat.not_lt.mpr hv))

end Sys2Proof.Machine
end

section
/-! SUPPORT. Sequences of commands that succeed one after another (20_memory.md R60, 10_state.md R36). -/

namespace Sys2Proof.Machine

/-- The words of the commands `is` take `s` to `t`, and the data that their responses carry are `xs`, in order. -/
def RunsTo (tb : Tables) (is : List Instr) (xs : List Block) (s t : State) : Prop :=
  performAll tb (is.map encode) s = .next t ∧ ∃ rs, t.responses = s.responses ++ rs ∧ dataOf rs = xs

/-- The data of a run are those of the responses that it added. -/
theorem RunsTo.spec {tb : Tables} {is : List Instr} {xs : List Block} {s t : State} (h : RunsTo tb is xs s t) :
    performAll tb (is.map encode) s = .next t ∧ dataOf (t.responses.drop s.responses.length) = xs := by
  obtain ⟨hrun, rs, hrs, hxs⟩ := h
  exact ⟨hrun, by rw [hrs, List.drop_left, hxs]⟩

theorem RunsTo.nil (tb : Tables) (s : State) : RunsTo tb [] [] s s :=
  ⟨rfl, [], (List.append_nil _).symm, rfl⟩

@[simp] theorem performWordUnder_encode (tb : Tables) (i : Instr) (s : State) :
    performWordUnder tb (encode i) s = execUnder tb i s := by
  simp [performWordUnder, performBy]

theorem dataOf_cons (r : Response) (rs : List Response) : dataOf (r :: rs) = r.data.toList ++ dataOf rs := by
  cases hr : r.data <;> simp [dataOf, hr]

/-- A command that succeeds, then a run from the state of its response. -/
theorem Succeeds.runsTo_cons {tb : Tables} {s u t : State} {i : Instr} {is : List Instr} {x : Option Block}
    {xs : List Block} (hu : Succeeds tb s i x u) (h : RunsTo tb is xs (respond .ok x.isSome x u) t) :
    RunsTo tb (i :: is) (x.toList ++ xs) s t := by
  obtain ⟨hrun, rs, hrs, hxs⟩ := h
  obtain ⟨-, -, hresponses, -⟩ := hu.answer_frame
  refine ⟨?_, { err := errBits .ok, dvalid := x.isSome, data := x } :: rs, ?_, ?_⟩
  · rw [List.map_cons, performAll, performWordUnder_encode, hu.execUnder_eq]
    exact hrun
  · rw [hrs, respond_responses, hresponses, List.append_assoc, List.singleton_append]
  · rw [dataOf_cons, hxs]

end Sys2Proof.Machine
end

section
/-! SUPPORT. The blocks of a session (45_modes.md R181 to R187): a loaded key, an active session, and what one MSGBLK gives
and leaves in it. -/

namespace Sys2Proof.Machine

/-- The key `k` is loaded, with its two subkeys (10_state.md R38 (a)). -/
structure HasKey (tb : Tables) (k : Key) (s : State) : Prop where
  key : s.key = some k
  k1 : s.k1 = some (keySchedule tb k).1
  k2 : s.k2 = some (keySchedule tb k).2
  valid : s.keyValid = true

/-- A session with this mode and direction has `n` blocks left, none once it has ended, and in CBC its chain value is
`prev` (10_state.md R38 (c), (d)). -/
structure InSession (mode : Mode) (dir : Dir) (prev : Block) (n : Nat) (s : State) : Prop where
  msgMode : s.msgMode = mode
  msgDir : s.msgDir = dir
  chain : mode = .cbc → s.chain = some prev
  blkLeft : s.blkLeft.toNat = n
  msgActive : s.msgActive = decide (n ≠ 0)

/-- The block that a mode function gives for one block, `prev` being the previous ciphertext block or the IV. -/
def modeBlock (tb : Tables) (k : Key) (mode : Mode) (dir : Dir) (prev b : Block) : Block :=
  match mode, dir with
  | .ecb, .enc => encrypt tb b k
  | .ecb, .dec => decrypt tb b k
  | .cbc, .enc => encrypt tb (xorSeq b prev) k
  | .cbc, .dec => xorSeq (decrypt tb b k) prev

/-- The ciphertext block of one block of a message: the block given when encrypting, the block sent when decrypting. -/
def cipherBlock (tb : Tables) (k : Key) (mode : Mode) (dir : Dir) (prev b : Block) : Block :=
  match dir with
  | .enc => modeBlock tb k mode .enc prev b
  | .dec => b

theorem modeBlocks_nil (tb : Tables) (k : Key) (prev : Block) (mode : Mode) (dir : Dir) :
    modeBlocks tb k prev mode dir [] = [] := by
  cases mode <;> cases dir <;> rfl

/-- The mode functions work block by block; the ciphertext block of one is the `prev` of the next. -/
theorem modeBlocks_cons (tb : Tables) (k : Key) (prev : Block) (mode : Mode) (dir : Dir) (b : Block) (bs : List Block) :
    modeBlocks tb k prev mode dir (b :: bs) =
      modeBlock tb k mode dir prev b :: modeBlocks tb k (cipherBlock tb k mode dir prev b) mode dir bs := by
  cases mode <;> cases dir <;> rfl

/-- What every successful MSGBLK does to the session: one block fewer, and the end after the last (45_modes.md R187). -/
theorem Succeeds.session_of_msgblk {tb : Tables} {s u : State} {b : Block} {x : Option Block}
    (hu : Succeeds tb s (.msgblk b) x u) :
    u.msgMode = s.msgMode ∧ u.msgDir = s.msgDir ∧ u.blkLeft = s.blkLeft - 1 ∧
      u.msgActive = if s.blkLeft - 1 = 0 then false else s.msgActive := by
  cases hu <;> exact ⟨rfl, rfl, rfl, rfl⟩

section
variable {tb : Tables} {k : Key} {mode : Mode} {dir : Dir} {prev : Block} {n : Nat} {s u : State}

/-- Commands other than LDKEY keep the loaded key. -/
theorem HasKey.after {i : Instr} {x : Option Block} (hk : HasKey tb k s) (hu : Succeeds tb s i x u)
    (hi : i.op ≠ .ldkey) : HasKey tb k (respond .ok x.isSome x u) := by
  obtain ⟨hkey, h1, h2, hvalid⟩ | ⟨k', rfl, -⟩ := hu.sameKey_or_ldkey
  · exact ⟨hkey.trans hk.key, h1.trans hk.k1, h2.trans hk.k2, hvalid.trans hk.valid⟩
  · exact absurd rfl hi

/-- A MSGBLK in a session gives the block of the mode function. -/
theorem InSession.msgblk_succeeds (h : InSession mode dir prev (n + 1) s) (hk : HasKey tb k s) (b : Block) :
    ∃ u, Succeeds tb s (.msgblk b) (some (modeBlock tb k mode dir prev b)) u := by
  have ha : s.msgActive = true := h.msgActive
  cases mode with
  | ecb =>
    cases dir with
    | enc => exact ⟨_, .msgblkEcbEnc b ha hk.k1 hk.k2 h.msgMode h.msgDir⟩
    | dec => exact ⟨_, .msgblkEcbDec b ha hk.k1 hk.k2 h.msgMode h.msgDir⟩
  | cbc =>
    cases dir with
    | enc => exact ⟨_, .msgblkCbcEnc b ha hk.k1 hk.k2 h.msgMode h.msgDir (h.chain rfl)⟩
    | dec => exact ⟨_, .msgblkCbcDec b ha hk.k1 hk.k2 h.msgMode h.msgDir (h.chain rfl)⟩

/-- After it one block fewer is left, and CHAIN is the ciphertext block. -/
theorem InSession.after_msgblk {b : Block} (h : InSession mode dir prev (n + 1) s)
    (hu : Succeeds tb s (.msgblk b) (some (modeBlock tb k mode dir prev b)) u) :
    InSession mode dir (cipherBlock tb k mode dir prev b) n
      (respond .ok true (some (modeBlock tb k mode dir prev b)) u) := by
  obtain ⟨hmode, hdir, hleft, hactive⟩ := hu.session_of_msgblk
  have hn : (s.blkLeft - 1).toNat = n := by have := h.blkLeft; bv_omega
  refine ⟨hmode.trans h.msgMode, hdir.trans h.msgDir, fun hm => ?_, hleft ▸ hn, ?_⟩
  · rw [respond_chain, hu.chain_of_msgblk_cbc (h.msgMode.trans hm), h.msgDir]
    cases dir <;> rfl
  · have hlast : s.blkLeft - 1 = 0 ↔ n = 0 := by rw [← hn]; exact BitVec.toNat_inj.symm
    rw [respond_msgActive, hactive, h.msgActive]
    simpa using hlast

/-- MSGBEGIN with a length of `n` blocks starts a session over `n` blocks, in CBC from the IV (45_modes.md R186). -/
theorem msgbegin_succeeds {len : BitVec 16} (hk : HasKey tb k s) (ha : s.msgActive = false)
    (hiv : mode = .cbc → s.ivValid = true ∧ s.iv = some prev) (dir : Dir) (hlen : len.toNat = 8 * n) :
    ∃ u, Succeeds tb s (.msgbegin mode dir len) none u ∧ InSession mode dir prev n (respond .ok false none u) := by
  have hmod : len.toNat % 8 = 0 := by omega
  have hleft : (BitVec.ofNat 13 (len.toNat / 8)).toNat = n := by rw [toNat_blocks]; omega
  have hactive : decide (len ≠ 0) = decide (n ≠ 0) := by rw [decide_eq_decide]; bv_omega
  cases mode with
  | ecb => exact ⟨_, .msgbeginEcb dir ha hk.valid hmod, rfl, rfl, nofun, hleft, hactive⟩
  | cbc =>
    obtain ⟨hvalid, hiv⟩ := hiv rfl
    exact ⟨_, .msgbeginCbc dir ha hk.valid hmod hvalid hiv, rfl, rfl, fun _ => rfl, hleft, hactive⟩

end

section
variable {tb : Tables} {k : Key} {mode : Mode} {dir : Dir}

/-- The MSGBLKs of a session over all its blocks give the mode function, and the session has then ended. -/
theorem InSession.msgblks_run {prev : Block} (m : List Block) {s : State} (h : InSession mode dir prev m.length s)
    (hk : HasKey tb k s) :
    ∃ t, RunsTo tb (m.map .msgblk) (modeBlocks tb k prev mode dir m) s t ∧ HasKey tb k t ∧ t.msgActive = false := by
  induction m generalizing prev s with
  | nil => exact ⟨s, by rw [modeBlocks_nil]; exact RunsTo.nil tb s, hk, h.msgActive⟩
  | cons b m ih =>
    obtain ⟨u, hu⟩ := h.msgblk_succeeds hk b
    obtain ⟨t, hrun, hend⟩ := ih (h.after_msgblk hu) (hk.after hu nofun)
    exact ⟨t, modeBlocks_cons tb k prev mode dir b m ▸ hu.runsTo_cons hrun, hend⟩

/-- A session over the blocks of a message gives the mode function, and ends (45_modes.md R196). -/
theorem session_runs {prev : Block} {m : List Block} {s : State} (hk : HasKey tb k s) (ha : s.msgActive = false)
    (hiv : mode = .cbc → s.ivValid = true ∧ s.iv = some prev) (dir : Dir) (hm : m.length ≤ 8191) :
    ∃ t, RunsTo tb (.msgbegin mode dir (BitVec.ofNat 16 (8 * m.length)) :: m.map .msgblk)
      (modeBlocks tb k prev mode dir m) s t ∧ HasKey tb k t ∧ t.msgActive = false := by
  have hlen : (BitVec.ofNat 16 (8 * m.length)).toNat = 8 * m.length := by rw [BitVec.toNat_ofNat]; omega
  obtain ⟨u, hu, hsession⟩ := msgbegin_succeeds hk ha hiv dir hlen
  obtain ⟨t, hrun, hend⟩ := hsession.msgblks_run m (hk.after hu nofun)
  exact ⟨t, hu.runsTo_cons hrun, hend⟩

theorem ecbSession_runs {m : List Block} {s : State} (hk : HasKey tb k s) (ha : s.msgActive = false) (dir : Dir)
    (hm : m.length ≤ 8191) :
    ∃ t, RunsTo tb (ecbSession dir m) (ecbBlocks tb k dir m) s t ∧ HasKey tb k t ∧ t.msgActive = false :=
  session_runs (prev := 0) (mode := .ecb) hk ha nofun dir hm

theorem cbcSession_runs {m : List Block} {s : State} (hk : HasKey tb k s) (ha : s.msgActive = false) (dir : Dir)
    (iv : Block) (hm : m.length ≤ 8191) :
    ∃ t, RunsTo tb (cbcSession dir m iv) (modeBlocks tb k iv .cbc dir m) s t ∧ HasKey tb k t ∧ t.msgActive = false := by
  have hu : Succeeds tb s (.ldiv iv) none (loadIv iv s) := .ldiv iv
  obtain ⟨t, hrun, hend⟩ := session_runs (prev := iv) (mode := .cbc) (hk.after hu nofun) ha (fun _ => ⟨rfl, rfl⟩) dir hm
  exact ⟨t, hu.runsTo_cons hrun, hend⟩

end

end Sys2Proof.Machine
end

section
/-! PROOFS. The statement about the source's functions as command sequences (30_encoding.md R80). -/

namespace Sys2Proof.Machine

/-- Settles O56: LDKEY loads the key schedule, and each later command succeeds with its part of the result. -/
theorem sourceFunctionsByCommandSequences : Obligations.SourceFunctionsByCommandSequences := by
  intro tb s _ ha
  have hldkey : ∀ k, Succeeds tb s (.ldkey k) none (loadKey tb k s) := fun k => .ldkey k ha
  have hk : ∀ k, HasKey tb k (respond .ok false none (loadKey tb k s)) := fun _ => ⟨rfl, rfl, rfl, rfl⟩
  refine ⟨fun k => ?_, fun b k => ?_, fun b k => ?_, fun dir m k hm => ?_, fun dir m k iv hm => ?_⟩
  · have hrdk1 := Succeeds.rdk1 (tb := tb) (hk k).valid (hk k).k1
    have hrdk2 := Succeeds.rdk2 (tb := tb) ((hk k).after hrdk1 nofun).valid ((hk k).after hrdk1 nofun).k2
    exact ⟨_, ((hldkey k).runsTo_cons (hrdk1.runsTo_cons (hrdk2.runsTo_cons (RunsTo.nil tb _)))).spec⟩
  · have hencb := Succeeds.encb (tb := tb) b (hk k).valid (hk k).k1 (hk k).k2
    exact ⟨_, ((hldkey k).runsTo_cons (hencb.runsTo_cons (RunsTo.nil tb _))).spec⟩
  · have hdecb := Succeeds.decb (tb := tb) b (hk k).valid (hk k).k1 (hk k).k2
    exact ⟨_, ((hldkey k).runsTo_cons (hdecb.runsTo_cons (RunsTo.nil tb _))).spec⟩
  · obtain ⟨t, hrun, -⟩ := ecbSession_runs (hk k) ha dir hm
    exact ⟨t, ((hldkey k).runsTo_cons hrun).spec⟩
  · obtain ⟨t, hrun, -⟩ := cbcSession_runs (hk k) ha dir iv hm
    exact ⟨t, ((hldkey k).runsTo_cons hrun).spec⟩

end Sys2Proof.Machine
end

section
/-! SUPPORT. Rotations and permutations by their elements (40_bitvector.md R101, R102), and what the configuration check
says of a pattern and its inverse (R105). -/

namespace Sys2Proof.Machine

theorem element_rotl {w : Nat} (v : BitVec w) (n : Nat) {i : Nat} (hi : i < w) :
    element (rotl v n) i = element v ((i + n) % w) :=
  element_ofElements w _ hi

theorem element_perm {n m : Nat} (v : BitVec n) (p : List Nat) {i : Nat} (hi : i < m) :
    element (perm m v p) i = element v (p.getD i 0 - 1) :=
  element_ofElements m _ hi

@[simp] theorem rotl_zero {w : Nat} (v : BitVec w) : rotl v 0 = v := by
  refine eq_of_elements fun i hi => ?_
  rw [element_rotl v 0 hi, Nat.add_zero, Nat.mod_eq_of_lt hi]

/-- The amount of a rotation counts modulo the width. -/
@[simp] theorem rotl_mod {w : Nat} (v : BitVec w) (n : Nat) : rotl v (n % w) = rotl v n := by
  refine eq_of_elements fun i hi => ?_
  rw [element_rotl v _ hi, element_rotl v _ hi, Nat.add_mod_mod]

/-- Rotations compose by adding their amounts. -/
theorem rotl_rotl {w : Nat} (v : BitVec w) (m n : Nat) : rotl (rotl v m) n = rotl v (m + n) := by
  refine eq_of_elements fun i hi => ?_
  rw [element_rotl _ n hi, element_rotl v m (Nat.mod_lt _ (by omega)), element_rotl v _ hi, Nat.mod_add_mod,
    Nat.add_assoc, Nat.add_comm n m]

theorem iterate_rotl {w : Nat} (v : BitVec w) (n k : Nat) : (fun x => rotl x n)^[k] v = rotl v (k * n) := by
  induction k with
  | zero => rw [Nat.zero_mul, rotl_zero]; rfl
  | succ k ih => rw [Function.iterate_succ_apply', ih, rotl_rotl, Nat.succ_mul]

theorem rotl_eq_rotateLeft {w : Nat} (v : BitVec w) (n : Nat) : rotl v n = v.rotateLeft n := by
  refine eq_of_elements fun i hi => ?_
  rw [element_rotl v n hi, element, element, BitVec.getMsbD_rotateLeft, decide_eq_true hi, Bool.true_and, Nat.add_comm]

theorem isPattern_iff {n m : Nat} {p : List Nat} :
    isPattern n m p = true ↔ p.length = m ∧ ∀ k ∈ p, 1 ≤ k ∧ k ≤ n := by
  simp [isPattern]

/-- The entries of a pattern, by position. -/
theorem isPattern_getD {n m : Nat} {p : List Nat} (hp : isPattern n m p = true) {i : Nat} (hi : i < m) :
    1 ≤ p.getD i 0 ∧ p.getD i 0 ≤ n := by
  obtain ⟨hlen, hrange⟩ := isPattern_iff.mp hp
  rw [List.getD_eq_getElem p 0 (hlen ▸ hi)]
  exact hrange _ (List.getElem_mem _)

theorem undoes_iff {p q : List Nat} :
    undoes p q = true ↔ ∀ i < p.length, p.getD (q.getD i 0 - 1) 0 = i + 1 := by
  simp [undoes]

/-- A pattern that `q` undoes, and then `q`, give the sequence back (R105 (c)). -/
theorem perm_perm_of_undoes {n : Nat} {p q : List Nat} (hp : isPattern n n p = true) (hq : isPattern n n q = true)
    (h : undoes p q = true) (v : BitVec n) : perm n (perm n v p) q = v := by
  obtain ⟨hlen, -⟩ := isPattern_iff.mp hp
  refine eq_of_elements fun i hi => ?_
  have hrange := isPattern_getD hq hi
  rw [element_perm _ q hi, element_perm v p (by omega), undoes_iff.mp h i (hlen ▸ hi), Nat.add_sub_cancel]

/-- What the configuration check says of IP and its inverse (R105 (a) to (c)). -/
theorem ip_of_validTables {t : Tables} (h : validTables t = true) :
    isPattern 8 8 t.ip = true ∧ isPattern 8 8 t.ipInv = true ∧ undoes t.ip t.ipInv = true := by
  simp only [validTables, Bool.and_eq_true, and_assoc] at h
  obtain ⟨-, -, hip, hinv, -, -, hundoes, -⟩ := h
  exact ⟨hip, hinv, hundoes⟩

theorem element_eq_getLsbD {w : Nat} (v : BitVec w) {i : Nat} (hi : i < w) : element v i = v.getLsbD (w - 1 - i) := by
  simp [element, BitVec.getMsbD, hi]

/-- A pattern as wiring of hardware bits: source index `k` is the input bit `n - k`, as element 0 is the most significant
bit (00_scope.md R11, 40_bitvector.md R104). -/
theorem getLsbD_perm {n m : Nat} (v : BitVec n) {p : List Nat} (hp : isPattern n m p = true) {j : Nat} (hj : j < m) :
    (perm m v p).getLsbD (m - 1 - j) = v.getLsbD ((p.map (n - ·)).getD j 0) := by
  have hlen : j < p.length := (isPattern_iff.mp hp).1 ▸ hj
  have hrange := isPattern_getD hp hj
  have hbit : (p.map (n - ·)).getD j 0 = n - p.getD j 0 := by simp [hlen]
  rw [← element_eq_getLsbD _ hj, element_perm v p hj, element_eq_getLsbD v (by omega), hbit]
  congr 1; omega

end Sys2Proof.Machine
end

section
/-! PROOFS. The statements about the BitVector utilities and the default tables (40_bitvector.md). -/

namespace Sys2Proof.Machine

/-- Settles O42: element i of a permuted sequence, for an entry that the pattern has. -/
theorem permutationPicksThePatternsElements : Obligations.PermutationPicksThePatternsElements := by
  intro n m v p hlen _ i hi
  rw [element_perm v p (hlen ▸ hi), List.getD_eq_getElem p 0 hi]

/-- Settles O43: the element law, and `rotateLeft` by its elements. -/
theorem rotationMovesElementsLeft : Obligations.RotationMovesElementsLeft :=
  ⟨fun _ v n _ _ hi => element_rotl v n hi, fun _ v => rotl_zero v, fun _ v n _ => rotl_eq_rotateLeft v n,
    by decide, by decide⟩

/-- Settles O44: rotations add their amounts modulo the width, and a valid TABLES has an inverse of IP. -/
theorem bitVectorLaws : Obligations.BitVectorLaws := by
  refine ⟨fun w a b => ⟨?_, BitVec.xor_comm a b, BitVec.xor_self⟩, fun w v m n _ _ => ?_, fun w v => rotl_zero v,
    fun w v n _ => ?_, fun t v ht => ?_⟩
  · rw [xorSeq, xorSeq, BitVec.xor_assoc, BitVec.xor_self, BitVec.xor_zero]
  · rw [rotl_rotl, rotl_mod]
  · rw [iterate_rotl, ← rotl_mod, Nat.mul_mod_right, rotl_zero]
  · obtain ⟨hip, hinv, hundoes⟩ := ip_of_validTables ht
    exact perm_perm_of_undoes hip hinv hundoes v

/-- Settles O45: the check of R105 and R125 evaluated on the default tables. -/
theorem defaultTablesAreAValidConfiguration : Obligations.DefaultTablesAreAValidConfiguration := by
  unfold Obligations.DefaultTablesAreAValidConfiguration
  decide

/-- Settles O46: each wiring line is its pattern with every source index `k` written as the input bit `n - k`. -/
theorem defaultPatternsAsWiring : Obligations.DefaultPatternsAsWiring :=
  ⟨fun v _ hj => getLsbD_perm v (p := tables.p10) (by decide) hj,
    fun v _ hj => getLsbD_perm v (p := tables.p8) (by decide) hj,
    fun v _ hj => getLsbD_perm v (p := tables.ip) (by decide) hj,
    fun v _ hj => getLsbD_perm v (p := tables.ipInv) (by decide) hj,
    fun v _ hj => getLsbD_perm v (p := tables.expand) (by decide) hj,
    fun v _ hj => getLsbD_perm v (p := tables.p4) (by decide) hj⟩

/-- Settles O48: the datapath evaluated on each vector. -/
theorem defaultDatapathVectors : Obligations.DefaultDatapathVectors := by
  unfold Obligations.DefaultDatapathVectors
  decide

end Sys2Proof.Machine
end

section
/-! SUPPORT. The S-box lookup: the entries of a checked box, and the output field's value (41_sbox.md R120, R121, R125). -/

namespace Sys2Proof.Machine

/-- What holds of a list's entries and of the default holds of every lookup, inside the list or outside. -/
theorem getD_of_forall_mem {α : Type} {P : α → Prop} {l : List α} {d : α} (hl : ∀ a ∈ l, P a) (hd : P d) (i : Nat) :
    P (l.getD i d) := by
  by_cases hi : i < l.length
  · rw [List.getD_eq_getElem l d hi]
    exact hl _ (List.getElem_mem hi)
  · rwa [List.getD_eq_default l d (not_lt.mp hi)]

theorem isBox_iff {s : List (List Nat)} :
    isBox s = true ↔ s.length = 4 ∧ ∀ row ∈ s, row.length = 4 ∧ ∀ n ∈ row, n ≤ 3 := by
  simp [isBox]

/-- Every lookup in a box that passes the check of R125 fits two bits. -/
theorem isBox_getD_le {s : List (List Nat)} (h : isBox s = true) (row col : Nat) :
    (s.getD row []).getD col 0 ≤ 3 := by
  obtain ⟨-, hrows⟩ := isBox_iff.mp h
  have hrow : ∀ n ∈ s.getD row [], n ≤ 3 :=
    getD_of_forall_mem (P := fun r => ∀ n ∈ r, n ≤ 3) (fun r hr => (hrows r hr).2) (by simp) row
  exact getD_of_forall_mem (P := (· ≤ 3)) hrow (by simp) col

/-- The two-bit field of an entry holds the entry (R121). -/
theorem toNat_bin2 {n : Nat} (h : n ≤ 3) : (bin2 n).toNat = n := Nat.mod_eq_of_lt (Nat.lt_succ_of_le h)

/-- The output field's value is the entry at the row of the outer bits and the column of the inner bits (R120). -/
theorem toNat_sbox (x : BitVec 4) {s : List (List Nat)} (h : isBox s = true) :
    (sbox x s).toNat = (s.getD (2 * (element x 0).toNat + (element x 3).toNat) []).getD
      (2 * (element x 1).toNat + (element x 2).toNat) 0 :=
  toNat_bin2 (isBox_getD_le h _ _)

/-- A sequence put together from four bits has them as its elements, in order (00_scope.md R10, R11). -/
theorem elements_of_four_bits : ∀ b0 b1 b2 b3 : Bool,
    let x : BitVec 4 := BitVec.ofBool b0 ++ BitVec.ofBool b1 ++ BitVec.ofBool b2 ++ BitVec.ofBool b3
    element x 0 = b0 ∧ element x 1 = b1 ∧ element x 2 = b2 ∧ element x 3 = b3 := by
  decide

end Sys2Proof.Machine
end

section
/-! PROOFS. The statement about the S-boxes (41_sbox.md). -/

namespace Sys2Proof.Machine

/-- Settles O47: the output field holds the looked-up entry, which R125 keeps within two bits; the order of the two
output bits and the default truth tables are evaluated. -/
theorem boxLookupByRowAndColumn : Obligations.BoxLookupByRowAndColumn := by
  refine ⟨fun b0 b1 b2 b3 s hs => ?_, by decide, by decide, by decide⟩
  obtain ⟨h0, h1, h2, h3⟩ := elements_of_four_bits b0 b1 b2 b3
  intro x
  rw [toNat_sbox x hs, h0, h1, h2, h3]

end Sys2Proof.Machine
end

section
/-! SUPPORT. What `exec` answers, in the terms of the statements: a success with the frame of its register writes, or a
failure (10_state.md R36, 60_exceptions.md R222). -/

namespace Sys2Proof.Machine

theorem Succeeds.exec_next {s u : State} {i : Instr} {x : Option Block} (hu : Succeeds tables s i x u) :
    exec i s = .next (respond .ok x.isSome x u) :=
  exec_eq ▸ hu.execUnder_eq

/-- The response over the register writes of a successful command is a success: the writes leave the answer alone. -/
theorem Succeeds.respond_succeedsWith {tb : Tables} {s u : State} {i : Instr} {x : Option Block}
    (hu : Succeeds tb s i x u) : succeedsWith x s (respond .ok x.isSome x u) := by
  obtain ⟨hsticky, hhost, hresponses, -⟩ := hu.answer_frame
  exact Machine.respond_succeedsWith hresponses hhost hsticky

theorem Succeeds.respond_gives {tb : Tables} {s u : State} {i : Instr} {x : Option Block} (hu : Succeeds tb s i x u) :
    gives 0 x.isSome x s (respond .ok x.isSome x u) :=
  hu.respond_succeedsWith.1

/-- A successful command without register writes, such as RDK1 or ENCB, answers its data and keeps every key, IV and
session register. -/
theorem Succeeds.exec_keeps_registers {s : State} {i : Instr} {x : Option Block} (hu : Succeeds tables s i x s) :
    ∃ t, exec i s = .next t ∧ succeedsWith x s t ∧ sameKey s t ∧ sameIv s t ∧ sameSession s t :=
  ⟨_, hu.exec_next, hu.respond_succeedsWith, sameKey_refl s, sameIv_refl s, sameSession_refl s⟩

/-- A command whose first error is `e` fails with the number of `e`. -/
theorem exec_failsWith {i : Instr} {s : State} {e : ErrCode} (hf : firstError i s = e) (he : e ≠ .ok) :
    ∃ t, exec i s = .next t ∧ failsWith (errBits e) s t := by
  subst hf
  exact ⟨_, exec_eq ▸ execUnder_of_firstError tables he, raiseError_failsWith _ s⟩

/-- LDKEY leaves its key and both subkeys (42_key_schedule.md R135). -/
theorem hasKey_loadKey (tb : Tables) (k : Key) (s : State) : HasKey tb k (respond .ok false none (loadKey tb k s)) :=
  ⟨rfl, rfl, rfl, rfl⟩

/-- Under R38 (a) a held key stands with its subkeys. -/
theorem hasKey_of_keyInv {tb : Tables} {k : Key} {s : State} (h : keyInv tb s) (hk : s.key = some k) :
    HasKey tb k s := by
  obtain ⟨hvalid, h1, h2⟩ := h
  rw [hk] at hvalid h1 h2
  exact ⟨hk, h1, h2, hvalid⟩

/-- Two states that hold the same key have the same key registers. -/
theorem HasKey.sameKey {tb : Tables} {k : Key} {s t : State} (hs : HasKey tb k s) (ht : HasKey tb k t) :
    Machine.sameKey s t :=
  ⟨ht.key.trans hs.key.symm, ht.k1.trans hs.k1.symm, ht.k2.trans hs.k2.symm, ht.valid.trans hs.valid.symm⟩

end Sys2Proof.Machine
end

section
/-! SUPPORT. The elements of the subkeys: each is one element of the key, at a place that P10, the rotation and P8 give
(42_key_schedule.md R130). -/

namespace Sys2Proof.Machine

/-- Where element `j` of two 5-bit halves that were rotated by `n` stood before. -/
def rotatedSource (n j : Nat) : Nat := if j < 5 then (j + n) % 5 else 5 + (j - 5 + n) % 5

theorem rotatedSource_lt (n j : Nat) : rotatedSource n j < 10 := by
  unfold rotatedSource
  split <;> omega

theorem element_rotateHalves (v : BitVec 10) (n : Nat) {j : Nat} (hj : j < 10) :
    element (rotateHalves v n) j = element v (rotatedSource n j) := by
  rw [rotateHalves, rotatedSource, element_append]
  split
  · rw [element_rotl _ n ‹j < 5›, element_left 5 v (by omega) (by omega)]
  · rw [element_rotl _ n (by omega), element_right 5 v (by omega) (by omega)]

/-- Rotations of the halves compose by adding their amounts. -/
theorem rotateHalves_rotateHalves (v : BitVec 10) (m n : Nat) :
    rotateHalves (rotateHalves v m) n = rotateHalves v (m + n) := by
  obtain ⟨hleft, hright⟩ := left_append_right (rotl (left 5 v) m) (rotl (right 5 v) m)
  simp only [rotateHalves, hleft, hright, rotl_rotl]

/-- The subkey after `n` rotations in total: K1 for 1, K2 for 3. -/
def subkey (t : Tables) (n : Nat) (k : Key) : Block := perm 8 (rotateHalves (perm 10 k t.p10) n) t.p8

theorem keySchedule_eq (t : Tables) (k : Key) : keySchedule t k = (subkey t 1 k, subkey t 3 k) := by
  simp only [keySchedule, subkey, rotateHalves_rotateHalves]

/-- The element of the key that element `j` of the subkey after `n` rotations is. -/
def subkeySource (t : Tables) (n j : Nat) : Nat := t.p10.getD (rotatedSource n (t.p8.getD j 0 - 1)) 0 - 1

theorem element_subkey {t : Tables} (hp8 : isPattern 10 8 t.p8 = true) (n : Nat) (k : Key) {j : Nat} (hj : j < 8) :
    element (subkey t n k) j = element k (subkeySource t n j) := by
  have hrange := isPattern_getD hp8 hj
  rw [subkey, element_perm _ _ hj, element_rotateHalves _ n (by omega), element_perm k _ (rotatedSource_lt n _),
    subkeySource]

/-- The key schedule is injective for tables that bring every element of the key into K1 or K2. -/
theorem keySchedule_injective {t : Tables} (hp8 : isPattern 10 8 t.p8 = true)
    (hcover : ∀ i < 10, ∃ j < 8, subkeySource t 1 j = i ∨ subkeySource t 3 j = i) :
    Function.Injective (keySchedule t) := by
  intro k l h
  rw [keySchedule_eq, keySchedule_eq, Prod.mk.injEq] at h
  obtain ⟨h1, h3⟩ := h
  refine eq_of_elements fun i hi => ?_
  obtain ⟨j, hj, rfl | rfl⟩ := hcover i hi
  · rw [← element_subkey hp8 1 k hj, ← element_subkey hp8 1 l hj, h1]
  · rw [← element_subkey hp8 3 k hj, ← element_subkey hp8 3 l hj, h3]

end Sys2Proof.Machine
end

section
/-! PROOFS. The statements about the key schedule and the key commands, and the examples of the command rules
(42_key_schedule.md). -/

namespace Sys2Proof.Machine

/-- Settles O32: LDKEY fails by its one check or leaves the loaded key, which a state that held it already has. -/
theorem ldkeyLoadsKeyAndSubkeys : Obligations.LdkeyLoadsKeyAndSubkeys := by
  refine ⟨encodedAs_row (r := ⟨0x1, .ldkey, .k, 0x10000000, 0xFFFFFC00⟩) (by decide),
    fun w k h => (Instr.ldkey.inj (operands_of_decode h)).symm, fun k s ha => ?_, fun k s ha => ?_,
    fun k s ha hk hinv => ?_⟩
  · exact exec_failsWith (e := .msgBusy) (by simp [firstError, ha]) nofun
  · have hu : Succeeds tables s (.ldkey k) none (loadKey tables k s) := .ldkey k ha
    exact ⟨_, hu.exec_next, hu.respond_succeedsWith, rfl, rfl, rfl, rfl, sameIv_refl s, sameSession_refl s⟩
  · obtain ⟨hkey, -⟩ := hinv
    have hu : Succeeds tables s (.ldkey k) none (loadKey tables k s) := .ldkey k ha
    exact ⟨_, hu.exec_next, (hasKey_of_keyInv hkey hk).sameKey (hasKey_loadKey tables k s)⟩

/-- Settles O33: RDK1 fails by its one check or answers K1 and writes no register. -/
theorem rdkOneReturnsTheFirstSubkey : Obligations.RdkOneReturnsTheFirstSubkey :=
  ⟨encodedAs_row (r := ⟨0x8, .rdk1, .n, 0x80000000, 0xFFFFFFFF⟩) (by decide),
    fun _ hk => exec_failsWith (e := .noKey) (by simp [firstError, hk]) nofun,
    fun _ _ hk h1 => (Succeeds.rdk1 hk h1).exec_keeps_registers⟩

/-- Settles O34: RDK2 fails by its one check or answers K2 and writes no register. -/
theorem rdkTwoReturnsTheSecondSubkey : Obligations.RdkTwoReturnsTheSecondSubkey :=
  ⟨encodedAs_row (r := ⟨0x9, .rdk2, .n, 0x90000000, 0xFFFFFFFF⟩) (by decide),
    fun _ hk => exec_failsWith (e := .noKey) (by simp [firstError, hk]) nofun,
    fun _ _ hk h2 => (Succeeds.rdk2 hk h2).exec_keeps_registers⟩

/-- Settles O49: under the default tables every element of the key stands in K1 or K2. -/
theorem defaultKeyScheduleIsInjective : Obligations.DefaultKeyScheduleIsInjective := by
  have hcover : ∀ i < 10, ∃ j < 8, subkeySource tables 1 j = i ∨ subkeySource tables 3 j = i := by decide
  exact fun k l h => keySchedule_injective (by decide) hcover h

/-- Settles O53: LDKEY leaves the loaded key, and each of the four commands succeeds with it. -/
theorem commandsAfterLdkeyComputeTheSourceFunctions : Obligations.CommandsAfterLdkeyComputeTheSourceFunctions := by
  intro tb k s ha
  have hldkey : Succeeds tb s (.ldkey k) none (loadKey tb k s) := .ldkey k ha
  have hk := hasKey_loadKey tb k s
  have hrdk1 := Succeeds.rdk1 (tb := tb) hk.valid hk.k1
  have hrdk2 := Succeeds.rdk2 (tb := tb) hk.valid hk.k2
  have hencb := fun b => Succeeds.encb (tb := tb) b hk.valid hk.k1 hk.k2
  have hdecb := fun b => Succeeds.decb (tb := tb) b hk.valid hk.k1 hk.k2
  exact ⟨_, hldkey.execUnder_eq, hldkey.respond_succeedsWith, ⟨_, hrdk1.execUnder_eq, hrdk1.respond_gives⟩,
    ⟨_, hrdk2.execUnder_eq, hrdk2.respond_gives⟩, fun b => ⟨_, (hencb b).execUnder_eq, (hencb b).respond_gives⟩,
    fun b => ⟨_, (hdecb b).execUnder_eq, (hdecb b).respond_gives⟩⟩

end Sys2Proof.Machine
end

section
/-! SUPPORT. The states that the examples of the command rules run through, one after LDKEY, LDIV and MSGBEGIN each, and
what the subkeys are in them (42_key_schedule.md R135, 45_modes.md R185, R186). -/

namespace Sys2Proof.Machine

/-- After LDKEY 0b1010000010 from reset. -/
def exampleKeyed : State := respond .ok false none (loadKey tables 0b1010000010 State.reset)

/-- After LDIV 0b01010101 in `exampleKeyed`. -/
def exampleKeyedIv : State := respond .ok false none (loadIv 0b01010101 exampleKeyed)

/-- After MSGBEGIN cbc, enc, 24 in `exampleKeyedIv`. -/
def exampleInCbc : State :=
  respond .ok false none (setChain 0b01010101 (beginSession .cbc .enc 24 exampleKeyedIv))

theorem exampleKeyed_subkeys : exampleKeyed.k1 = some 0b10100100 ∧ exampleKeyed.k2 = some 0b01000011 := by
  obtain ⟨-, -, -, -, hks, -⟩ := defaultDatapathVectors
  rw [exampleKeyed, respond_k1, respond_k2, loadKey_k1, loadKey_k2, hks]
  exact ⟨rfl, rfl⟩

/-- The block of the MSGBLK example: the operand, XORed with the IV and encrypted (45_modes.md R187). -/
theorem encSub_of_msgblk_example :
    encSub tables (xorSeq 0b11010111 0b01010101) 0b10100100 0b01000011 = 0b00001011 := by
  decide

end Sys2Proof.Machine
end

section
/-! PROOFS. The examples of the command rules. -/

namespace Sys2Proof.Machine

/-- Settles O41: each command of the examples succeeds in the state before it, with the data of the datapath vectors. -/
theorem commandExamplesUnderTheDefaultTables : Obligations.CommandExamplesUnderTheDefaultTables := by
  obtain ⟨-, -, henc, hdec, -⟩ := defaultDatapathVectors
  obtain ⟨h1, h2⟩ := exampleKeyed_subkeys
  have hldkey := Succeeds.ldkey (tb := tables) (s := State.reset) 0b1010000010 rfl
  have hrdk1 := Succeeds.rdk1 (tb := tables) (s := exampleKeyed) rfl h1
  have hrdk2 := Succeeds.rdk2 (tb := tables) (s := exampleKeyed) rfl h2
  have hencb : Succeeds tables exampleKeyed (.encb 0b11010111) (some 0b10101000) exampleKeyed :=
    henc ▸ .encb _ rfl h1 h2
  have hdecb : Succeeds tables exampleKeyed (.decb 0b10101000) (some 0b11010111) exampleKeyed :=
    hdec ▸ .decb _ rfl h1 h2
  have hldiv := Succeeds.ldiv (tb := tables) (s := exampleKeyed) 0b01010101
  have hmsgbegin := Succeeds.msgbeginCbc (tb := tables) (s := exampleKeyedIv) (n := 24) .enc rfl rfl rfl rfl rfl
  have hmsgblk : Succeeds tables exampleInCbc (.msgblk 0b11010111) (some 0b00001011)
      (countBlock (setChain 0b00001011 exampleInCbc)) :=
    encSub_of_msgblk_example ▸ .msgblkCbcEnc _ rfl h1 h2 rfl rfl rfl
  exact ⟨exampleKeyed, exampleKeyedIv, exampleInCbc, hldkey.exec_next, hldkey.respond_gives, h1, h2, rfl,
    ⟨_, hrdk1.exec_next, hrdk1.respond_gives⟩, ⟨_, hrdk2.exec_next, hrdk2.respond_gives⟩,
    ⟨_, hencb.exec_next, hencb.respond_gives⟩, ⟨_, hdecb.exec_next, hdecb.respond_gives⟩,
    hldiv.exec_next, hldiv.respond_gives, rfl, rfl,
    hmsgbegin.exec_next, hmsgbegin.respond_gives, rfl, rfl, rfl, rfl, rfl,
    ⟨_, hmsgblk.exec_next, hmsgblk.respond_gives, rfl, rfl⟩⟩

end Sys2Proof.Machine
end

section
/-! SUPPORT. The block transform (44_block_core.md R160 to R163): a round and the half swap on the two halves, each
undone by itself; IP and its inverse undo each other in both orders; and the subkeys reversed undo EncSub. -/

namespace Sys2Proof.Machine

/-- A sequence is its two halves (00_scope.md R12). -/
theorem left_append_right_eq {m n : Nat} (v : BitVec (m + n)) : left m v ++ right n v = v := by
  rw [left, right, Nat.add_sub_cancel_left]
  exact BitVec.extractLsb'_append_extractLsb'

@[simp] theorem left_fk (t : Tables) (b sk : Block) :
    left 4 (fk t b sk) = xorSeq (left 4 b) (roundF t (right 4 b) sk) :=
  (left_append_right _ _).1

@[simp] theorem right_fk (t : Tables) (b sk : Block) : right 4 (fk t b sk) = right 4 b :=
  (left_append_right _ _).2

@[simp] theorem left_sw (b : Block) : left 4 (sw b) = right 4 b := (left_append_right _ _).1

@[simp] theorem right_sw (b : Block) : right 4 (sw b) = left 4 b := (left_append_right _ _).2

/-- The same mask twice cancels (40_bitvector.md R106). -/
theorem xorSeq_xorSeq_cancel {w : Nat} (a b : BitVec w) : xorSeq (xorSeq a b) b = a := by
  obtain ⟨hxor, -⟩ := bitVectorLaws
  exact (hxor w a b).1

/-- A round keeps the half that its mask is computed from, so the second round has the same mask. -/
theorem fk_fk (t : Tables) (b sk : Block) : fk t (fk t b sk) sk = b := by
  rw [fk, left_fk, right_fk, xorSeq_xorSeq_cancel]
  exact left_append_right_eq (m := 4) (n := 4) b

theorem sw_sw (b : Block) : sw (sw b) = b := by
  rw [sw, left_sw, right_sw]
  exact left_append_right_eq (m := 4) (n := 4) b

/-- A pattern that undoes another is also undone by it: there are finitely many sequences of a width. -/
theorem perm_perm_of_undoes_swapped {n : Nat} {p q : List Nat} (hp : isPattern n n p = true)
    (hq : isPattern n n q = true) (h : undoes p q = true) (v : BitVec n) : perm n (perm n v q) p = v := by
  have : Finite (BitVec n) := .of_injective _ BitVec.toFin_injective
  have hleft : Function.LeftInverse (perm n · q : BitVec n → BitVec n) (perm n · p) := perm_perm_of_undoes hp hq h
  exact hleft.rightInverse_of_surjective (Finite.surjective_of_injective hleft.injective) v

/-- The two rounds and the swap are undone by the same with the subkeys reversed, and IP and its inverse by each other
(R165). -/
theorem decSub_encSub {t : Tables} (ht : validTables t = true) (b k1 k2 : Block) :
    decSub t (encSub t b k1 k2) k1 k2 = b := by
  obtain ⟨hip, hinv, hundoes⟩ := ip_of_validTables ht
  rw [decSub, encSub, perm_perm_of_undoes_swapped hip hinv hundoes, fk_fk, sw_sw, fk_fk,
    perm_perm_of_undoes hip hinv hundoes]

/-- DecSub is EncSub with the subkeys reversed (R163), so this is the round trip under the reversed subkeys. -/
theorem encSub_decSub {t : Tables} (ht : validTables t = true) (b k1 k2 : Block) :
    encSub t (decSub t b k1 k2) k1 k2 = b :=
  decSub_encSub ht b k2 k1

end Sys2Proof.Machine
end

section
/-! PROOFS. The statements about the block transform and the single-block commands (44_block_core.md). -/

namespace Sys2Proof.Machine

/-- Settles O51: the halves of the swapped block, and the example evaluated. -/
theorem halfSwapUndoesItself : Obligations.HalfSwapUndoesItself :=
  ⟨fun b => ⟨left_sw b, right_sw b⟩, sw_sw, by decide⟩

/-- Settles O50: the halves of a round's result, whose mask the second round computes again. -/
theorem feistelRoundUndoesItself : Obligations.FeistelRoundUndoesItself :=
  ⟨fun t b sk => ⟨left_fk t b sk, right_fk t b sk⟩, fk_fk⟩

/-- Settles O52: EncSub and DecSub undo each other under the two subkeys of the key. -/
theorem decryptUndoesEncrypt : Obligations.DecryptUndoesEncrypt :=
  fun _ b _ ht => ⟨decSub_encSub ht b _ _, encSub_decSub ht b _ _⟩

/-- Settles O35: ENCB fails by its one check or answers EncSub of its operand and writes no register. -/
theorem encbReturnsTheEncryptedBlock : Obligations.EncbReturnsTheEncryptedBlock :=
  ⟨encodedAs_row (r := ⟨0x2, .encb, .b, 0x20000000, 0xFFFFFF00⟩) (by decide),
    fun _ _ h => (Instr.encb.inj (operands_of_decode h)).symm,
    fun _ _ hk => exec_failsWith (e := .noKey) (by simp [firstError, hk]) nofun,
    fun b _ _ _ hk h1 h2 => (Succeeds.encb b hk h1 h2).exec_keeps_registers⟩

/-- Settles O36: DECB fails by its one check or answers DecSub of its operand and writes no register. -/
theorem decbReturnsTheDecryptedBlock : Obligations.DecbReturnsTheDecryptedBlock :=
  ⟨encodedAs_row (r := ⟨0x3, .decb, .b, 0x30000000, 0xFFFFFF00⟩) (by decide),
    fun _ _ h => (Instr.decb.inj (operands_of_decode h)).symm,
    fun _ _ hk => exec_failsWith (e := .noKey) (by simp [firstError, hk]) nofun,
    fun b _ _ _ hk h1 h2 => (Succeeds.decb b hk h1 h2).exec_keeps_registers⟩

end Sys2Proof.Machine
end

section
/-! SUPPORT. The session registers (45_modes.md R189, R190): which successful commands write them, and what a failing one
leaves. -/

namespace Sys2Proof.Machine

section
variable {tb : Tables} {s u : State} {i : Instr} {x : Option Block}

/-- Only MSGBEGIN outside a session, MSGBLK and MSGABORT write the session registers. -/
theorem Succeeds.sameSession_or (h : Succeeds tb s i x u) :
    sameSession s u ∨ (∃ m d n, i = .msgbegin m d n ∧ s.msgActive = false) ∨ (∃ b, i = .msgblk b) ∨ i = .msgabort := by
  cases h with
  | msgbeginEcb d ha | msgbeginCbc d ha => exact .inr (.inl ⟨_, d, _, rfl, ha⟩)
  | msgblkEcbEnc b | msgblkEcbDec b | msgblkCbcEnc b | msgblkCbcDec b => exact .inr (.inr (.inl ⟨b, rfl⟩))
  | msgabort => exact .inr (.inr (.inr rfl))
  | _ => exact .inl (sameSession_refl s)

/-- A command other than MSGBEGIN, MSGBLK and MSGABORT keeps the session registers. -/
theorem Succeeds.sameSession_of_op (h : Succeeds tb s i x u) (hi : i.op ∉ [Op.msgbegin, Op.msgblk, Op.msgabort]) :
    sameSession s u := by
  obtain hsame | ⟨m, d, n, rfl, -⟩ | ⟨b, rfl⟩ | rfl := h.sameSession_or
  · exact hsame
  all_goals simp [Instr.op] at hi

/-- A command other than LDKEY keeps the key registers. -/
theorem Succeeds.sameKey_of_op (h : Succeeds tb s i x u) (hi : i.op ≠ .ldkey) : sameKey s u := by
  obtain hsame | ⟨k, rfl, -⟩ := h.sameKey_or_ldkey
  · exact hsame
  · exact absurd rfl hi

/-- A command other than LDIV keeps the IV registers. -/
theorem Succeeds.sameIv_of_op (h : Succeeds tb s i x u) (hi : i.op ≠ .ldiv) : sameIv s u := by
  obtain hsame | ⟨v, rfl, -⟩ := h.sameIv_or_ldiv
  · exact hsame
  · exact absurd rfl hi

/-- A MSGBLK succeeds only in a session. -/
theorem Succeeds.msgActive_of_msgblk {b : Block} (h : Succeeds tb s (.msgblk b) x u) : s.msgActive = true := by
  cases h <;> assumption

end

/-- The last block is the one with BLK_LEFT = 1. -/
theorem blkLeft_pred_eq_zero_iff {n : BitVec 13} : n - 1 = 0 ↔ n = 1 := by
  constructor <;> intro h <;> bv_omega

/-- In a session MSGBLK succeeds whenever it answers a next state. -/
theorem exec_msgblk_cases {b : Block} {s t : State} (h : exec (.msgblk b) s = .next t) (ha : s.msgActive = true) :
    ∃ x u, Succeeds tables s (.msgblk b) x u ∧ t = respond .ok x.isSome x u := by
  obtain ⟨hf, -⟩ | hu := execUnder_cases (exec_eq ▸ h)
  · simp [firstError, ha] at hf
  · exact hu

/-- A word that fails, or is no command, only raises its error. -/
theorem performWord_failed {w : Word} {s t : State} (h : performWord w s = .next t)
    (hfail : t.lastErr ≠ 0 ∨ ∀ i, decode w ≠ .command i) : ∃ e, t = raiseError e s := by
  obtain ⟨e, -, rfl⟩ | ⟨i, x, u, hw, -, rfl⟩ := performWord_answers h
  · exact ⟨e, rfl⟩
  · obtain hne | hno := hfail
    · exact absurd rfl hne
    · exact absurd hw (hno i)

/-- A word that ends a session is the MSGBLK of its last block, or MSGABORT. -/
theorem performWord_ends_session {w : Word} {s t : State} (h : performWord w s = .next t) (hs : s.msgActive = true)
    (ht : t.msgActive = false) :
    (∃ b, decode w = .command (.msgblk b) ∧ s.blkLeft = 1 ∧ t.blkLeft = 0) ∨ decode w = .command .msgabort := by
  obtain ⟨e, -, rfl⟩ | ⟨i, x, u, hw, hu, rfl⟩ := performWord_answers h
  · simp [hs] at ht
  obtain ⟨hsame, -⟩ | ⟨m, d, n, rfl, ha⟩ | ⟨b, rfl⟩ | rfl := hu.sameSession_or
  · simp [hsame, hs] at ht
  · simp [hs] at ha
  · obtain ⟨-, -, hleft, hactive⟩ := hu.session_of_msgblk
    have hlast : s.blkLeft - 1 = 0 := by
      by_contra hne
      rw [respond_msgActive, hactive, if_neg hne, hs] at ht
      contradiction
    exact .inl ⟨b, hw, blkLeft_pred_eq_zero_iff.mp hlast, hleft.trans hlast⟩
  · exact .inr hw

/-- A MSGBLK that succeeds, with the frame of its register writes (45_modes.md R187). -/
theorem Succeeds.exec_msgblk {b : Block} {s u : State} {x : Option Block} (hu : Succeeds tables s (.msgblk b) x u) :
    ∃ t, exec (.msgblk b) s = .next t ∧ succeedsWith x s t ∧ t.chain = u.chain ∧ t.blkLeft = s.blkLeft - 1 ∧
      t.msgActive = decide (s.blkLeft ≠ 1) ∧ t.msgMode = s.msgMode ∧ t.msgDir = s.msgDir ∧ sameKey s t ∧
      sameIv s t := by
  obtain ⟨hmode, hdir, hleft, hactive⟩ := hu.session_of_msgblk
  refine ⟨_, hu.exec_next, hu.respond_succeedsWith, rfl, hleft, ?_, hmode, hdir, hu.sameKey_of_op nofun,
    hu.sameIv_of_op nofun⟩
  rw [respond_msgActive, hactive, hu.msgActive_of_msgblk]
  simpa using blkLeft_pred_eq_zero_iff

/-- The data of a MSGBLK in ECB, from its operand, the subkeys and the direction alone. -/
theorem Succeeds.data_of_msgblk_ecb {tb : Tables} {b : Block} {s u : State} {x : Option Block}
    (hu : Succeeds tb s (.msgblk b) x u) (hm : s.msgMode = .ecb) :
    ∃ k1 k2, s.k1 = some k1 ∧ s.k2 = some k2 ∧
      x = some (if s.msgDir = .enc then encSub tb b k1 k2 else decSub tb b k1 k2) := by
  cases hu with
  | msgblkEcbEnc b _ h1 h2 _ hd | msgblkEcbDec b _ h1 h2 _ hd => exact ⟨_, _, h1, h2, by simp [hd]⟩
  | msgblkCbcEnc _ _ _ _ hm' | msgblkCbcDec _ _ _ _ hm' => simp [hm] at hm'

end Sys2Proof.Machine
end

section
/-! PROOFS. The statements about the mode commands and the session registers (45_modes.md R185 to R190). -/

namespace Sys2Proof.Machine

/-- Settles O19: a session is left by MSGBLK when its last block is counted, by MSGABORT and by reset, for an error and
every other success keep the session registers. -/
theorem sessionEndsInThreeWaysOnly : Obligations.SessionEndsInThreeWaysOnly := by
  refine ⟨fun s t h hs ht => ?_, fun b s t h hs hlast => ?_, fun s t h => ?_, fun s t p rest hs h => ?_,
    fun w s t h hne => ?_⟩
  · obtain ⟨-, rfl⟩ | ⟨w, rest, hw, h⟩ | ⟨p, rest, hp, -⟩ := step_cases h
    · simp [hs] at ht
    · obtain ⟨b, hb, hlast⟩ | habort := performWord_ends_session h hs ht
      · exact .inl ⟨w, rest, b, hw, hb, hlast⟩
      · exact .inr (.inl ⟨w, rest, hw, habort⟩)
    · exact .inr (.inr ⟨p, rest, hp⟩)
  · obtain ⟨x, u, hu, rfl⟩ := exec_msgblk_cases h hs
    obtain ⟨-, -, hleft, hactive⟩ := hu.session_of_msgblk
    have hzero : s.blkLeft - 1 = 0 := blkLeft_pred_eq_zero_iff.mpr hlast
    exact ⟨hactive.trans (if_pos hzero), hleft.trans hzero⟩
  · have habort : execMsgabort s = .next t := h
    obtain rfl := done_next.mp habort
    rfl
  · rw [step_reset hs h]
    rfl
  · obtain ⟨e, rfl⟩ := performWord_failed h (.inl hne)
    exact sameSession_refl s

/-- Settles O20: of the commands that succeed in a session, only MSGBLK and MSGABORT write the session registers, and
none the key. -/
theorem interleavedCommandsKeepTheSession : Obligations.InterleavedCommandsKeepTheSession := by
  refine ⟨fun i s t hop h => ?_, fun i s hop ha => ?_, fun w s t h hfail => ?_⟩
  · obtain ⟨-, rfl⟩ | ⟨x, u, hu, rfl⟩ := execUnder_cases (exec_eq ▸ h)
    · exact ⟨sameSession_refl s, sameKey_refl s⟩
    · have hother : i.op ∉ [Op.msgbegin, Op.msgblk, Op.msgabort] ∧ i.op ≠ .ldkey := by
        revert hop; generalize i.op = op; revert op; decide
      obtain ⟨hsession, hkey⟩ := hother
      exact ⟨hu.sameSession_of_op hsession, hu.sameKey_of_op hkey⟩
  · refine exec_failsWith (e := .msgBusy) ?_ nofun
    cases i with
    | ldkey k | msgbegin m d n => simp [firstError, ha]
    | _ => simp [Instr.op] at hop
  · obtain ⟨e, rfl⟩ := performWord_failed h hfail
    exact ⟨sameSession_refl s, sameKey_refl s⟩

/-- Settles O37: LDIV has no check and writes the IV registers alone; the repetition is R58's. -/
theorem ldivLoadsTheVector : Obligations.LdivLoadsTheVector := by
  refine ⟨encodedAs_row (r := ⟨0x4, .ldiv, .b, 0x40000000, 0xFFFFFF00⟩) (by decide),
    fun w v h => (Instr.ldiv.inj (operands_of_decode h)).symm, fun v s => ?_, fun v s t h => ?_⟩
  · have hu : Succeeds tables s (.ldiv v) none (loadIv v s) := .ldiv v
    exact ⟨_, hu.exec_next, hu.respond_succeedsWith, rfl, rfl, sameKey_refl s, sameSession_refl s⟩
  · exact repeatedCommandGivesTheSameRegisters (.ldiv v) s t (by simp [Instr.op]) h

/-- Settles O38: each refusal is the first error of its hypotheses, and past the checks the session starts. -/
theorem msgbeginStartsASession : Obligations.MsgbeginStartsASession := by
  obtain ⟨-, -, hfields, -⟩ := operandFieldsAreTakenAsTheyStand
  refine ⟨encodedAs_row (r := ⟨0x5, .msgbegin, .m, 0x50000000, 0xFFFC0000⟩) (by decide), hfields,
    fun m d n s ha => ?_, fun m d n s ha hk => ?_, fun d n s ha hk hi => ?_, fun m d n s ha hk hi hn => ?_,
    fun d n s ha hk hn => ?_, fun d n v s ha hk hi hv hn => ?_, fun n hn => ?_⟩
  · exact exec_failsWith (e := .msgBusy) (by simp [firstError, ha]) nofun
  · exact exec_failsWith (e := .noKey) (by simp [firstError, ha, hk]) nofun
  · exact exec_failsWith (e := .noIv) (by simp [firstError, mode_bit_eq, ha, hk, hi]) nofun
  · exact exec_failsWith (e := .msgNotAligned) (by simpa [firstError, mode_bit_eq, ha, hk, hn] using hi) nofun
  · have hu := Succeeds.msgbeginEcb (tb := tables) d ha hk hn
    exact ⟨_, hu.exec_next, hu.respond_succeedsWith, rfl, rfl, toNat_blocks n, rfl, rfl, sameKey_refl s, sameIv_refl s⟩
  · have hu := Succeeds.msgbeginCbc (tb := tables) d ha hk hn hi hv
    exact ⟨_, hu.exec_next, hu.respond_succeedsWith, rfl, rfl, toNat_blocks n, rfl, rfl, sameKey_refl s, sameIv_refl s⟩
  · have hlt : n.toNat < 65536 := n.isLt
    omega

/-- Settles O39: MSGBLK fails by its one check or succeeds with the constructor of the session's mode and direction. -/
theorem msgblkProcessesTheNextBlock : Obligations.MsgblkProcessesTheNextBlock := by
  refine ⟨encodedAs_row (r := ⟨0x6, .msgblk, .b, 0x60000000, 0xFFFFFF00⟩) (by decide),
    fun w b h => (Instr.msgblk.inj (operands_of_decode h)).symm, fun b s ha => ?_, fun b k1 k2 s ha h1 h2 hm => ?_,
    fun b k1 k2 c s ha h1 h2 hm hd hc => (Succeeds.msgblkCbcEnc b ha h1 h2 hm hd hc).exec_msgblk,
    fun b k1 k2 c s ha h1 h2 hm hd hc => (Succeeds.msgblkCbcDec b ha h1 h2 hm hd hc).exec_msgblk,
    fun b s hinv ha => ?_⟩
  · exact exec_failsWith (e := .noMessage) (by simp [firstError, ha]) nofun
  · have hu : Succeeds tables s (.msgblk b)
        (some (if s.msgDir = .enc then encSub tables b k1 k2 else decSub tables b k1 k2)) (countBlock s) := by
      cases hd : s.msgDir with
      | enc => exact .msgblkEcbEnc b ha h1 h2 hm hd
      | dec => exact .msgblkEcbDec b ha h1 h2 hm hd
    exact hu.exec_msgblk
  · obtain ⟨x, u, hu⟩ := msgblk_succeeds (invUnder_registers hinv) ha b
    obtain ⟨-, -, hleft, -⟩ := hu.session_of_msgblk
    obtain ⟨-, -, hactive, -⟩ := hinv
    obtain ⟨-, hpos, -⟩ := hactive ha
    refine ⟨_, hu.exec_next, rfl, ?_⟩
    rw [respond_blkLeft, hleft]
    bv_omega

/-- Settles O40: MSGABORT has no check, and without a session R38 (d) gives BLK_LEFT the value that it writes. -/
theorem msgabortEndsTheSession : Obligations.MsgabortEndsTheSession := by
  refine ⟨encodedAs_row (r := ⟨0x7, .msgabort, .n, 0x70000000, 0xFFFFFFFF⟩) (by decide), fun s => ?_,
    fun s hinv ha => ?_⟩
  all_goals have hu : Succeeds tables s .msgabort none (endSession s) := .msgabort
  · exact ⟨_, hu.exec_next, hu.respond_succeedsWith, rfl, rfl, rfl, rfl, rfl, sameKey_refl s, sameIv_refl s⟩
  · obtain ⟨-, -, -, hleft, -⟩ := hinv
    exact ⟨_, hu.exec_next, ha.symm, rfl, rfl, (hleft ha).symm, rfl⟩

end Sys2Proof.Machine
end

section
/-! SUPPORT. Messages and their blocks (45_modes.md R180, R184): the elements of the blocks are the message, and only a
message of whole blocks has any. -/

namespace Sys2Proof.Machine

/-- The elements of a block, in order. -/
def blockBits (b : Block) : List Bool := (List.range 8).map (element b)

theorem bitsOf_cons (b : Block) (bs : List Block) : bitsOf (b :: bs) = blockBits b ++ bitsOf bs := List.flatMap_cons

@[simp] theorem length_blockBits (b : Block) : (blockBits b).length = 8 := by simp [blockBits]

theorem length_bitsOf (bs : List Block) : (bitsOf bs).length = 8 * bs.length := by
  induction bs with
  | nil => rfl
  | cons b bs ih => rw [bitsOf_cons, List.length_append, length_blockBits, ih, List.length_cons]; omega

theorem blockBits_blockOf (b0 b1 b2 b3 b4 b5 b6 b7 : Bool) :
    blockBits (blockOf b0 b1 b2 b3 b4 b5 b6 b7) = [b0, b1, b2, b3, b4, b5, b6, b7] := by
  refine List.ext_getElem (by simp) fun i _ hi => ?_
  have helement := element_ofElements 8 (fun i => [b0, b1, b2, b3, b4, b5, b6, b7].getD i false) hi
  simpa [blockBits, blockOf] using helement.trans (List.getD_eq_getElem _ _ hi)

/-- Element `j` of block `i` is element `8 * i + j` of the concatenation. -/
theorem getElem?_bitsOf (bs : List Block) {i j : Nat} (hi : i < bs.length) (hj : j < 8) :
    (bitsOf bs)[8 * i + j]? = some (element bs[i] j) := by
  induction bs generalizing i with
  | nil => simp at hi
  | cons b bs ih =>
    rw [bitsOf_cons]
    cases i with
    | zero => simp [List.getElem?_append_left, blockBits, hj]
    | succ i =>
      have hindex : 8 * (i + 1) + j - 8 = 8 * i + j := by omega
      rw [List.getElem?_append_right (by simp; omega), length_blockBits, hindex]
      exact ih (by simpa using hi)

/-- Eight elements more are one block more. -/
theorem blocksOf_cons (b0 b1 b2 b3 b4 b5 b6 b7 : Bool) (rest : List Bool) :
    blocksOf (b0 :: b1 :: b2 :: b3 :: b4 :: b5 :: b6 :: b7 :: rest) =
      (blocksOf rest).map (fun bs => blockOf b0 b1 b2 b3 b4 b5 b6 b7 :: bs) :=
  rfl

/-- A message has blocks exactly when its length is a multiple of 8. -/
theorem isSome_blocksOf : ∀ m : List Bool, (blocksOf m).isSome = true ↔ m.length % 8 = 0
  | [] => by simp [blocksOf]
  | b0 :: b1 :: b2 :: b3 :: b4 :: b5 :: b6 :: b7 :: rest => by
    have hlen : (b0 :: b1 :: b2 :: b3 :: b4 :: b5 :: b6 :: b7 :: rest).length = rest.length + 8 := rfl
    rw [blocksOf_cons, Option.isSome_map, isSome_blocksOf rest, hlen, Nat.add_mod_right]
  | [_] | [_, _] | [_, _, _] | [_, _, _, _] | [_, _, _, _, _] | [_, _, _, _, _, _] | [_, _, _, _, _, _, _] => by
    simp [blocksOf]

/-- The elements of the blocks of a message are the message. -/
theorem bitsOf_blocksOf {m : List Bool} {bs : List Block} (h : blocksOf m = some bs) : bitsOf bs = m := by
  induction m using blocksOf.induct generalizing bs with
  | case1 => cases h; rfl
  | case2 b0 b1 b2 b3 b4 b5 b6 b7 rest ih =>
    rw [blocksOf_cons] at h
    obtain ⟨bs, hbs, rfl⟩ := Option.map_eq_some_iff.mp h
    rw [bitsOf_cons, blockBits_blockOf, ih hbs]
    rfl
  | case3 m hnil hcons => simp [blocksOf] at h

end Sys2Proof.Machine
end

section
/-! SUPPORT. The mode functions over a concatenation, and what CBC carries from block to block (45_modes.md R181 to R183,
R197 to R199). -/

namespace Sys2Proof.Machine

/-- ECB is one function of a block, over every block (R181). -/
theorem ecbBlocks_eq_map (t : Tables) (k : Key) (dir : Dir) (bs : List Block) :
    ecbBlocks t k dir bs = bs.map (modeBlock t k .ecb dir 0) := by
  cases dir <;> rfl

theorem ecbBlocks_append (t : Tables) (k : Key) (dir : Dir) (a b : List Block) :
    ecbBlocks t k dir (a ++ b) = ecbBlocks t k dir a ++ ecbBlocks t k dir b := by
  simp only [ecbBlocks_eq_map, List.map_append]

theorem cbcEncryptBlocks_cons (t : Tables) (k : Key) (iv p : Block) (ps : List Block) :
    cbcEncryptBlocks t k iv (p :: ps) =
      encrypt t (xorSeq p iv) k :: cbcEncryptBlocks t k (encrypt t (xorSeq p iv) k) ps :=
  rfl

theorem cbcDecryptBlocks_cons (t : Tables) (k : Key) (iv c : Block) (cs : List Block) :
    cbcDecryptBlocks t k iv (c :: cs) = xorSeq (decrypt t c k) iv :: cbcDecryptBlocks t k c cs :=
  rfl

@[simp] theorem length_cbcEncryptBlocks (t : Tables) (k : Key) (iv : Block) (m : List Block) :
    (cbcEncryptBlocks t k iv m).length = m.length := by
  induction m generalizing iv with
  | nil => rfl
  | cons p ps ih => rw [cbcEncryptBlocks_cons, List.length_cons, List.length_cons, ih]

/-- The rest of a message is encrypted with the last ciphertext block before it as IV. -/
theorem cbcEncryptBlocks_append (t : Tables) (k : Key) (iv : Block) (a b : List Block) :
    cbcEncryptBlocks t k iv (a ++ b) =
      cbcEncryptBlocks t k iv a ++ cbcEncryptBlocks t k ((cbcEncryptBlocks t k iv a).getLastD iv) b := by
  induction a generalizing iv with
  | nil => rfl
  | cons p ps ih => rw [List.cons_append, cbcEncryptBlocks_cons, ih, cbcEncryptBlocks_cons, List.getLastD_cons]; rfl

/-- The rest of a message is decrypted with the last ciphertext block before it as IV. -/
theorem cbcDecryptBlocks_append (t : Tables) (k : Key) (iv : Block) (a b : List Block) :
    cbcDecryptBlocks t k iv (a ++ b) = cbcDecryptBlocks t k iv a ++ cbcDecryptBlocks t k (a.getLastD iv) b := by
  induction a generalizing iv with
  | nil => rfl
  | cons c cs ih => rw [List.cons_append, cbcDecryptBlocks_cons, ih, cbcDecryptBlocks_cons, List.getLastD_cons]; rfl

/-- CBC over a concatenation, with the IV that the host loads for the second part (R199). -/
theorem modeBlocks_cbc_append (t : Tables) (k : Key) (iv : Block) (dir : Dir) (a b : List Block) :
    modeBlocks t k iv .cbc dir (a ++ b) =
      modeBlocks t k iv .cbc dir a ++ modeBlocks t k (nextIv dir a (modeBlocks t k iv .cbc dir a) iv) .cbc dir b := by
  cases dir with
  | enc => exact cbcEncryptBlocks_append t k iv a b
  | dec => exact cbcDecryptBlocks_append t k iv a b

/-- Encryption under a valid TABLES tells blocks apart, for it can be undone (R165). -/
theorem encrypt_injective {t : Tables} (ht : validTables t = true) (k : Key) :
    Function.Injective (fun b => encrypt t b k) :=
  Function.LeftInverse.injective (g := fun b => decrypt t b k) fun b => (decryptUndoesEncrypt t b k ht).1

/-- Another block before a message changes every ciphertext block of it. -/
theorem cbcEncryptBlocks_ne_of_iv_ne {t : Tables} (ht : validTables t = true) (k : Key) {iv iv' : Block}
    (hne : iv ≠ iv') (m : List Block) {j : Nat} (hj : j < m.length) :
    (cbcEncryptBlocks t k iv m)[j]? ≠ (cbcEncryptBlocks t k iv' m)[j]? := by
  induction m generalizing iv iv' j with
  | nil => simp at hj
  | cons p ps ih =>
    have hhead : encrypt t (xorSeq p iv) k ≠ encrypt t (xorSeq p iv') k := fun h =>
      hne ((BitVec.xor_right_inj p).mp (encrypt_injective ht k h))
    rw [cbcEncryptBlocks_cons, cbcEncryptBlocks_cons]
    cases j with
    | zero => simpa using hhead
    | succ j => exact ih hhead (by simpa using hj)

/-- Another block at the head of a message changes every ciphertext block of it. -/
theorem cbcEncryptBlocks_ne_of_head_ne {t : Tables} (ht : validTables t = true) (k : Key) (iv : Block) {p q : Block}
    (hne : p ≠ q) (ps : List Block) {j : Nat} (hj : j < (p :: ps).length) :
    (cbcEncryptBlocks t k iv (p :: ps))[j]? ≠ (cbcEncryptBlocks t k iv (q :: ps))[j]? := by
  have hhead : encrypt t (xorSeq p iv) k ≠ encrypt t (xorSeq q iv) k := fun h =>
    hne ((BitVec.xor_left_inj iv).mp (encrypt_injective ht k h))
  rw [cbcEncryptBlocks_cons, cbcEncryptBlocks_cons]
  cases j with
  | zero => simpa using hhead
  | succ j => exact cbcEncryptBlocks_ne_of_iv_ne ht k hhead ps (by simpa using hj)

/-- CBC decryption undoes CBC encryption block by block: the ciphertext block is the `prev` of both. -/
theorem cbcDecryptBlocks_cbcEncryptBlocks {t : Tables} (ht : validTables t = true) (k : Key) (iv : Block)
    (m : List Block) : cbcDecryptBlocks t k iv (cbcEncryptBlocks t k iv m) = m := by
  induction m generalizing iv with
  | nil => rfl
  | cons p ps ih =>
    obtain ⟨hdec, -⟩ := decryptUndoesEncrypt t (xorSeq p iv) k ht
    rw [cbcEncryptBlocks_cons, cbcDecryptBlocks_cons, ih, hdec, xorSeq_xorSeq_cancel]

end Sys2Proof.Machine
end

section
/-! PROOFS. The statements about messages and the mode functions (45_modes.md R180 to R184, R197, R198). -/

namespace Sys2Proof.Machine

/-- Settles O54: the blocks are cut off eight elements at a time, and nothing but whole blocks is left at the end. -/
theorem misalignedMessageHasNoResult : Obligations.MisalignedMessageHasNoResult := by
  refine ⟨isSome_blocksOf, fun m bs h => ?_, fun tb k iv mode dir m bs h => ?_, fun tb k iv mode dir => ?_,
    fun tb k iv mode dir m hm => ?_⟩
  · obtain rfl := bitsOf_blocksOf h
    have hlen : bs.length = (bitsOf bs).length / 8 := by rw [length_bitsOf]; omega
    exact ⟨rfl, hlen, fun i hi j hj => getElem?_bitsOf bs hi hj⟩
  · rw [modeMessage, h]
  · simp [modeMessage, blocksOf, modeBlocks_nil, bitsOf]
  · have hnone : blocksOf m = none := by simpa using (isSome_blocksOf m).not.mpr hm
    rw [modeMessage, hnone]

/-- Settles O57: ECB maps one function over the blocks, and MSGBLK in ECB reads the subkeys and the direction alone. -/
theorem ecbBlocksAreIndependent : Obligations.EcbBlocksAreIndependent := by
  refine ⟨ecbBlocks_append, fun t k dir m i j h => ?_, fun b s s' t t' ha ha' hm hm' hd h1 h2 h h' => ?_⟩
  · simp only [ecbBlocks_eq_map, List.getElem?_map, h]
  · obtain ⟨x, u, hu, rfl⟩ := exec_msgblk_cases h ha
    obtain ⟨x', u', hu', rfl⟩ := exec_msgblk_cases h' ha'
    obtain ⟨a, c, ha1, hc2, rfl⟩ := hu.data_of_msgblk_ecb hm
    obtain ⟨a', c', ha1', hc2', rfl⟩ := hu'.data_of_msgblk_ecb hm'
    obtain rfl : a = a' := Option.some.inj (ha1.symm.trans (h1.trans ha1'))
    obtain rfl : c = c' := Option.some.inj (hc2.symm.trans (h2.trans hc2'))
    simp only [respond_rspData, hd]

/-- Settles O58: block by block, since encryption can be undone and the same XOR cancels. -/
theorem cbcDecryptUndoesCbcEncrypt : Obligations.CbcDecryptUndoesCbcEncrypt :=
  fun _ k iv m ht => cbcDecryptBlocks_cbcEncryptBlocks ht k iv m

/-- Settles O59: both ciphertexts begin with that of the blocks before; from the changed block on every ciphertext block
carries the change to the next. -/
theorem cbcChangeReachesEveryLaterBlock : Obligations.CbcChangeReachesEveryLaterBlock := by
  intro t k iv before after p q ht hne out out'
  have hlen : (cbcEncryptBlocks t k iv before).length = before.length := length_cbcEncryptBlocks t k iv before
  have hout : out = cbcEncryptBlocks t k iv before ++ _ := cbcEncryptBlocks_append t k iv before (p :: after)
  have hout' : out' = cbcEncryptBlocks t k iv before ++ _ := cbcEncryptBlocks_append t k iv before (q :: after)
  rw [hout, hout']
  refine ⟨?_, fun j hj hlast => ?_⟩
  · rw [List.take_left' hlen, List.take_left' hlen]
  · rw [List.length_append] at hlast
    rw [List.getElem?_append_right (hlen ▸ hj), List.getElem?_append_right (hlen ▸ hj), hlen]
    exact cbcEncryptBlocks_ne_of_head_ne ht k _ hne after (by omega)

end Sys2Proof.Machine
end

section
/-! SUPPORT. A session with other words between its blocks (45_modes.md R190, R196): words that may come between keep the
key and the session, so each MSGBLK finds them as the one before left them. -/

namespace Sys2Proof.Machine

/-- The same key registers hold the same key. -/
theorem HasKey.of_sameKey {tb : Tables} {k : Key} {s t : State} (h : HasKey tb k s) (hsame : Machine.sameKey s t) :
    HasKey tb k t := by
  obtain ⟨hkey, h1, h2, hvalid⟩ := hsame
  exact ⟨hkey.trans h.key, h1.trans h.k1, h2.trans h.k2, hvalid.trans h.valid⟩

/-- The same session registers are in the same session. -/
theorem InSession.of_sameSession {mode : Mode} {dir : Dir} {prev : Block} {n : Nat} {s t : State}
    (h : InSession mode dir prev n s) (hsame : sameSession s t) : InSession mode dir prev n t := by
  obtain ⟨hactive, hmode, hdir, hleft, hchain⟩ := hsame
  exact ⟨hmode.trans h.msgMode, hdir.trans h.msgDir, fun hm => hchain.trans (h.chain hm),
    (congrArg BitVec.toNat hleft).trans h.blkLeft, hactive.trans h.msgActive⟩

/-- What the host may rely on in a session with `n` blocks left: the invariants, the key, and the session itself. -/
structure Serving (tb : Tables) (k : Key) (mode : Mode) (dir : Dir) (prev : Block) (n : Nat) (s : State) : Prop where
  inv : registersInv tb s
  key : HasKey tb k s
  session : InSession mode dir prev n s

/-- In a session a word that may come between the blocks keeps the session and the key: of the commands that could write
them, LDKEY and MSGBEGIN are refused. -/
theorem performWordUnder_interleaved {tb : Tables} {w : Word} {s t : State} (hw : mayInterleave w = true)
    (ha : s.msgActive = true) (h : performWordUnder tb w s = .next t) : sameSession s t ∧ sameKey s t := by
  obtain ⟨e, -, rfl⟩ | ⟨i, x, u, hi, hu, rfl⟩ := performWordUnder_answers h
  · exact ⟨sameSession_refl s, sameKey_refl s⟩
  constructor
  · obtain hsame | ⟨m, d, n, rfl, ha'⟩ | ⟨b, rfl⟩ | rfl := hu.sameSession_or
    · exact hsame
    · simp [ha] at ha'
    all_goals simp [mayInterleave, hi, Instr.op] at hw
  · obtain hsame | ⟨k, rfl, ha', -⟩ := hu.sameKey_or_ldkey
    · exact hsame
    · simp [ha] at ha'

section
variable {tb : Tables} {k : Key} {mode : Mode} {dir : Dir} {prev : Block} {n : Nat} {s : State}

/-- The words between two blocks are all answered, and the session goes on. -/
theorem Serving.performAll_interleaved {ws : List Word} (h : Serving tb k mode dir prev (n + 1) s)
    (hws : ∀ w ∈ ws, mayInterleave w = true) :
    ∃ t, performAll tb ws s = .next t ∧ Serving tb k mode dir prev (n + 1) t := by
  induction ws generalizing s with
  | nil => exact ⟨s, rfl, h⟩
  | cons w ws ih =>
    obtain ⟨hw, hws⟩ := List.forall_mem_cons.mp hws
    obtain ⟨u, hu⟩ := performWordUnder_total h.inv w
    obtain ⟨hsession, hkey⟩ := performWordUnder_interleaved hw h.session.msgActive hu
    have hnext : Serving tb k mode dir prev (n + 1) u :=
      ⟨invUnder_registers (performWordUnder_inv h.inv hu), h.key.of_sameKey hkey, h.session.of_sameSession hsession⟩
    obtain ⟨t, ht, hserving⟩ := ih hnext hws
    exact ⟨t, by rw [performAll, hu]; exact ht, hserving⟩

/-- A MSGBLK gives the block of the mode function, and the session goes on with its ciphertext block. -/
theorem Serving.msgblk (h : Serving tb k mode dir prev (n + 1) s) (b : Block) :
    ∃ t, performWordUnder tb (encode (.msgblk b)) s = .next t ∧ t.lastErr = 0 ∧
      t.rspData = some (modeBlock tb k mode dir prev b) ∧
      Serving tb k mode dir (cipherBlock tb k mode dir prev b) n t := by
  obtain ⟨u, hu⟩ := h.session.msgblk_succeeds h.key b
  refine ⟨_, (performWordUnder_encode tb _ s).trans hu.execUnder_eq, rfl, rfl, ?_⟩
  exact ⟨invUnder_registers (respond_inv (hu.keeps_registersInv h.inv) _), h.key.after hu nofun,
    h.session.after_msgblk hu⟩

/-- One block of `sendBlocks`: the words before it, its MSGBLK, and the blocks after it. -/
theorem sendBlocks_cons {ws : List Word} {b d : Block} {rest : List (List Word × Block)} {ds : List Block}
    {u v t : State} (hws : performAll tb ws s = .next u)
    (hblk : performWordUnder tb (encode (.msgblk b)) u = .next v) (hok : v.lastErr = 0) (hd : v.rspData = some d)
    (hrest : sendBlocks tb rest v = some (ds, t)) : sendBlocks tb ((ws, b) :: rest) s = some (d :: ds, t) := by
  rw [sendBlocks, hws]
  simp only [hblk, hd, hok, hrest, if_true, Option.map_some]

/-- Sending all the blocks of a session gives the mode function, and ends the session. -/
theorem Serving.sendBlocks_eq {segs : List (List Word × Block)} (h : Serving tb k mode dir prev segs.length s)
    (hsegs : ∀ g ∈ segs, ∀ w ∈ g.1, mayInterleave w = true) :
    ∃ t, sendBlocks tb segs s = some (modeBlocks tb k prev mode dir (segs.map (fun g => g.2)), t) ∧
      t.msgActive = false ∧ t.blkLeft = 0 := by
  induction segs generalizing prev s with
  | nil =>
    refine ⟨s, ?_, h.session.msgActive, BitVec.eq_of_toNat_eq h.session.blkLeft⟩
    rw [List.map_nil, modeBlocks_nil, sendBlocks]
  | cons g rest ih =>
    obtain ⟨ws, b⟩ := g
    obtain ⟨hws, hrest⟩ := List.forall_mem_cons.mp hsegs
    obtain ⟨u, hu, hserving⟩ := h.performAll_interleaved hws
    obtain ⟨v, hv, hok, hd, hserving⟩ := hserving.msgblk b
    obtain ⟨t, ht, hend⟩ := ih hserving hrest
    exact ⟨t, modeBlocks_cons tb k prev mode dir b _ ▸ sendBlocks_cons hu hv hok hd ht, hend⟩

end

end Sys2Proof.Machine
end

section
/-! SUPPORT. Two runs of commands as one (45_modes.md R199). -/

namespace Sys2Proof.Machine

/-- Words in order keep the invariants. -/
theorem performAll_inv {tb : Tables} {ws : List Word} {s t : State} (hs : s.InvUnder tb)
    (h : performAll tb ws s = .next t) : t.InvUnder tb := by
  induction ws generalizing s with
  | nil => cases h; exact hs
  | cons w ws ih =>
    rw [performAll] at h
    split at h
    next u hu => exact ih (performWordUnder_inv (invUnder_registers hs) hu) h
    all_goals contradiction

theorem RunsTo.inv {tb : Tables} {is : List Instr} {xs : List Block} {s t : State} (h : RunsTo tb is xs s t)
    (hs : s.InvUnder tb) : t.InvUnder tb := by
  obtain ⟨hrun, -⟩ := h
  exact performAll_inv hs hrun

/-- After two runs the data since the first began are those of both, in order. -/
theorem RunsTo.data_of_two {tb : Tables} {is js : List Instr} {xs ys : List Block} {s t u : State}
    (h : RunsTo tb is xs s t) (g : RunsTo tb js ys t u) :
    dataOf (u.responses.drop s.responses.length) = xs ++ ys := by
  obtain ⟨-, rs, hrs, rfl⟩ := h
  obtain ⟨-, qs, hqs, rfl⟩ := g
  rw [hqs, hrs, List.append_assoc, List.drop_left]
  exact List.filterMap_append

end Sys2Proof.Machine
end

section
/-! PROOFS. The statements about sessions (45_modes.md R196, R199). -/

namespace Sys2Proof.Machine

/-- Settles O55: MSGBEGIN starts a session over the blocks, and every word between them leaves it as it is. -/
theorem sessionComputesTheModeFunction : Obligations.SessionComputesTheModeFunction := by
  intro tb k iv mode dir n segs s hinv ha hkey hiv hn hsegs
  have hregisters := invUnder_registers hinv
  obtain ⟨hkeyInv, hivInv, -⟩ := hinv
  have hk : HasKey tb k s := hasKey_of_keyInv hkeyInv hkey
  have hloaded : mode = .cbc → s.ivValid = true ∧ s.iv = some iv := fun hm =>
    ⟨by rw [hivInv, hiv hm]; rfl, hiv hm⟩
  obtain ⟨u, hu, hsession⟩ := msgbegin_succeeds hk ha hloaded dir hn
  have hserving : Serving tb k mode dir iv segs.length (respond .ok false none u) :=
    ⟨invUnder_registers (respond_inv (hu.keeps_registersInv hregisters) none), hk.after hu nofun, hsession⟩
  obtain ⟨t, ht, hend⟩ := hserving.sendBlocks_eq hsegs
  exact ⟨_, t, (performWordUnder_encode tb _ s).trans hu.execUnder_eq, rfl, ht, hend⟩

/-- Settles O60: each session runs as in R196, the second from the state after the first, and the mode functions split at
any block. -/
theorem longMessageAsSeveralSessions : Obligations.LongMessageAsSeveralSessions := by
  refine ⟨fun tb k dir a b s hinv ha hkey hlena hlenb => ?_, fun tb k iv dir a b s hinv ha hkey hlena hlenb => ?_,
    ecbBlocks_append, cbcEncryptBlocks_append, cbcDecryptBlocks_append⟩
  all_goals
    have hk : HasKey tb k s := by
      obtain ⟨hkeyInv, -⟩ := hinv
      exact hasKey_of_keyInv hkeyInv hkey
  · obtain ⟨t, hrun, hk, ha⟩ := ecbSession_runs hk ha dir hlena
    obtain ⟨u, hrun', hk', ha'⟩ := ecbSession_runs hk ha dir hlenb
    obtain ⟨hperform, hdata⟩ := hrun.spec
    obtain ⟨hperform', -⟩ := hrun'.spec
    refine ⟨t, u, hperform, hdata, hperform', ?_, hrun'.inv (hrun.inv hinv), ha', hk'.key⟩
    rw [hrun.data_of_two hrun', ecbBlocks_append]
  · obtain ⟨t, hrun, hk, ha⟩ := cbcSession_runs hk ha dir iv hlena
    obtain ⟨hperform, hdata⟩ := hrun.spec
    obtain ⟨u, hrun', hk', ha'⟩ :=
      cbcSession_runs hk ha dir (nextIv dir a (modeBlocks tb k iv .cbc dir a) iv) hlenb
    obtain ⟨hperform', -⟩ := hrun'.spec
    refine ⟨t, u, hperform, hdata, hdata ▸ hperform', ?_, hrun'.inv (hrun.inv hinv), ha', hk'.key⟩
    rw [hrun.data_of_two hrun', modeBlocks_cbc_append]

end Sys2Proof.Machine
end

section
/-! SUPPORT. The dispatch of a command word under any TABLES (46_control.md R212): a command word is performed as its
decoded command, and an illegal word raises ILLEGAL_CMD. -/

namespace Sys2Proof.Machine

theorem performWordUnder_command {w : Word} {i : Instr} (hw : decode w = .command i) (tb : Tables) (s : State) :
    performWordUnder tb w s = execUnder tb i s := by
  simp [performWordUnder, performBy, hw]

theorem performWordUnder_illegal {w : Word} {y : Illegal} (hw : decode w = .illegal y) (tb : Tables) (s : State) :
    performWordUnder tb w s = .next (raiseError .illegalCmd s) := by
  simp [performWordUnder, performBy, hw, performIllegal, raised]

section
variable {s : State} {w : Word} {rest : List HostEvent} (hs : s.host = .command w :: rest)
include hs

/-- Under a valid TABLES the step takes an offered command word and performs its command. -/
theorem stepUnder_command {tb : Tables} {i : Instr} (hv : validTables tb = true) (hw : decode w = .command i) :
    stepUnder tb s = execUnder tb i (takeEvent rest s) :=
  (stepUnder_serve hv hs).trans (performWordUnder_command hw tb _)

theorem step_command {i : Instr} (hw : decode w = .command i) : step s = exec i (takeEvent rest s) := by
  rw [step_eq, exec_eq, stepUnder_command hs validTables_tables hw]

/-- Under a valid TABLES an offered illegal word fails with ILLEGAL_CMD (R211). -/
theorem stepUnder_illegal {tb : Tables} {y : Illegal} (hv : validTables tb = true) (hw : decode w = .illegal y) :
    ∃ t, stepUnder tb s = .next t ∧ failsWith 1 (takeEvent rest s) t :=
  ⟨_, (stepUnder_serve hv hs).trans (performWordUnder_illegal hw tb _), raiseError_failsWith .illegalCmd _⟩

end

/-- A table word that is a command is the word that `withFetchWord` offers. -/
theorem decode_of_decodeTableWord {nbits w : Nat} {i : Instr} (h : decodeTableWord nbits w = some i) :
    decode (BitVec.ofNat 32 (w % 2 ^ nbits)) = .command i := by
  unfold decodeTableWord at h
  split_ifs at h
  split at h
  next j hj => exact hj.trans (congrArg Decoded.command (Option.some.inj h))
  next => simp at h

/-- A step takes the word that `withFetchWord` placed and is back at the host's events as they were. -/
theorem step_withFetchWord {nbits w : Nat} {i : Instr} (h : decodeTableWord nbits w = some i) (s : State) :
    step (s.withFetchWord nbits w) = exec i s :=
  step_command (rest := s.host) rfl (decode_of_decodeTableWord h)

/-- Only LDKEY, ENCB, DECB and MSGBLK use TABLES. -/
theorem execUnder_eq_exec {i : Instr} (hop : i.op ∉ [Op.ldkey, Op.encb, Op.decb, Op.msgblk]) (tb : Tables) (s : State) :
    execUnder tb i s = exec i s := by
  cases i with
  | ldkey | encb | decb | msgblk => simp [Instr.op] at hop
  | nop | ldiv | msgbegin | msgabort | rdk1 | rdk2 => rfl

end Sys2Proof.Machine
end

section
/-! PROOFS. The statements about NOP and the step (46_control.md). -/

namespace Sys2Proof.Machine

/-- Settles O31: NOP has no check and no register write before its response. -/
theorem nopReportsSuccess : Obligations.NopReportsSuccess := by
  have hu : ∀ s : State, Succeeds tables s .nop none s := fun _ => .nop
  refine ⟨encodedAs_row (r := ⟨0x0, .nop, .n, 0x00000000, 0xFFFFFFFF⟩) (by decide),
    fun s => (hu s).exec_keeps_registers, _, (hu State.reset).exec_next, (hu State.reset).respond_gives, ?_, by decide⟩
  exact ⟨sameKey_refl _, sameIv_refl _, sameSession_refl _, rfl, rfl, rfl, rfl⟩

/-- Settles O8: the step serves the next event, and `step`, `exec` and `performWord` are the cases of this machine's
TABLES. -/
theorem stepPerformsTheOfferedWord : Obligations.StepPerformsTheOfferedWord :=
  ⟨fun _ _ _ _ hs hw => step_command hs hw,
    fun _ _ _ _ hs hw => step_eq ▸ stepUnder_illegal hs validTables_tables hw,
    fun s _ _ h => step_withFetchWord h s,
    fun _ _ _ _ _ hv hs hw => stepUnder_command hs hv hw,
    fun _ _ _ _ _ hv hs hw => stepUnder_illegal hs hv hw,
    fun tb _ _ s hw => performWordUnder_command hw tb s,
    fun tb _ s hop => execUnder_eq_exec hop tb s,
    fun s => congrFun step_eq s,
    fun i s => congrFun₂ exec_eq i s,
    fun w s => congrFun₂ performWord_eq w s,
    fun _ s hv => stepUnder_invalid hv s⟩

end Sys2Proof.Machine
end

section
/-! SUPPORT. The error code of a response (60_exceptions.md R221, R223, R228), and a step that serves no command word
(R235). -/

namespace Sys2Proof.Machine

/-- A command that succeeds has passed every check of R223. -/
theorem Succeeds.firstError_eq_ok {tb : Tables} {s u : State} {i : Instr} {x : Option Block}
    (h : Succeeds tb s i x u) : firstError i s = .ok := by
  cases h with
  | nop | ldiv | msgabort => rfl
  | ldkey _ ha => simp [firstError, ha]
  | encb _ hk | decb _ hk | rdk1 hk | rdk2 hk => simp [firstError, hk]
  | msgbeginEcb _ ha hk hn => simp [firstError, mode_bit_eq, ha, hk, hn]
  | msgbeginCbc _ ha hk hn hi => simp [firstError, ha, hk, hn, hi]
  | msgblkEcbEnc _ ha | msgblkEcbDec _ ha | msgblkCbcEnc _ ha | msgblkCbcDec _ ha => simp [firstError, ha]

/-- LAST_ERR after a command is the code of its first error, OK when no check fails. -/
theorem execUnder_lastErr {tb : Tables} {i : Instr} {s t : State} (h : execUnder tb i s = .next t) :
    t.lastErr = errBits (firstError i s) := by
  obtain ⟨-, rfl⟩ | ⟨x, u, hu, rfl⟩ := execUnder_cases h
  · rfl
  · rw [hu.firstError_eq_ok, respond_lastErr]

theorem exec_lastErr {i : Instr} {s t : State} (h : exec i s = .next t) : t.lastErr = errBits (firstError i s) :=
  execUnder_lastErr (exec_eq ▸ h)

/-- The checks of R223 raise no code above MSG_BUSY. -/
theorem toNat_errBits_firstError_le (i : Instr) (s : State) : (errBits (firstError i s)).toNat ≤ 6 := by
  cases i with
  | nop | ldiv | msgabort => simp [firstError, errBits]
  | ldkey | encb | decb | rdk1 | rdk2 | msgblk | msgbegin =>
    simp only [firstError]
    split_ifs <;> decide

theorem sameRegisters_idle (s : State) : sameRegisters s (idle s) :=
  ⟨sameKey_refl s, sameIv_refl s, sameSession_refl s, rfl, rfl, rfl, rfl⟩

/-- Of the ports only the `rsp_valid` pulse reads what idleness writes. -/
theorem ports_idle (s : State) : ports (idle s) = { ports s with rspValid := false } := rfl

/-- A broken handshake has no transition (93_implementation_defined.md U3). -/
theorem step_unstableOffer {s : State} {w : Word} {rest : List HostEvent} (hs : s.host = .unstableOffer w :: rest) :
    step s = .refused .hostBrokeHandshake :=
  step_serve hs

end Sys2Proof.Machine
end

section
/-! PROOFS. The statements about errors and about a step without a command word (60_exceptions.md). -/

namespace Sys2Proof.Machine

/-- Settles O21: a nonzero code is that of a raised error, whose frame is `raiseError_failsWith`. -/
theorem failingCommandChangesOnlyTheErrorAnswer : Obligations.FailingCommandChangesOnlyTheErrorAnswer := by
  refine ⟨fun w s t h hne => ?_, fun w s t h hz => ?_⟩
  · obtain ⟨e, rfl⟩ := performWord_failed h (.inl hne)
    exact raiseError_failsWith e s
  · obtain ⟨hne, -⟩ | ⟨-, hsticky⟩ := performWord_stickyErr h
    · exact absurd hz hne
    · exact hsticky

/-- Settles O22: a command answers the code of its first error, an illegal word is refused before any command is run. -/
theorem firstApplicableErrorIsRaised : Obligations.FirstApplicableErrorIsRaised := by
  refine ⟨fun i s t h => exec_lastErr h, fun w y s t hw h => ?_, ?_⟩
  · rw [performWord_illegal hw] at h
    cases h
    rfl
  · have hkey : firstError (.msgbegin .cbc .enc 20) State.reset = .noKey := rfl
    obtain ⟨t, h, ⟨hcode, -⟩, -⟩ := exec_failsWith hkey nofun
    exact ⟨t, h, hcode⟩

/-- Settles O23: the code is that of a check of R223, or ILLEGAL_CMD. -/
theorem reservedErrorCodesAreNeverGiven : Obligations.ReservedErrorCodesAreNeverGiven := by
  intro w s t h
  obtain ⟨i, -, h⟩ | ⟨y, -, rfl⟩ := performWord_cases h
  · rw [exec_lastErr h]
    exact toNat_errBits_firstError_le i s
  · rw [raiseError_lastErr]
    decide

/-- Settles O9: an idle step ends the `rsp_valid` pulse and writes nothing else, and a broken handshake is refused. -/
theorem stepWithoutACommandWord : Obligations.StepWithoutACommandWord :=
  ⟨fun s hs => ⟨idle s, step_idle hs, sameRegisters_idle s, rfl, hs, ports_idle s⟩,
    fun _ _ _ hs => step_unstableOffer hs⟩

end Sys2Proof.Machine
end

section
/-! SUPPORT. What a step that serves a reset event answers (70_reset_and_hazards.md R250, R252). -/

namespace Sys2Proof.Machine

/-- Reset writes every register of R20, from every state. -/
theorem atReset_toReset (s : State) : atReset (toReset s) :=
  ⟨rfl, rfl, rfl, rfl, rfl, rfl, rfl, rfl, rfl, rfl, rfl, rfl, rfl, rfl, rfl⟩

/-- A reset event is always answered, and the word of the abandoned command plays no part in the answer (R252). -/
theorem step_eq_next_toReset {s : State} {p : Option Word} {rest : List HostEvent} (hs : s.host = .reset p :: rest) :
    step s = .next (toReset (takeEvent rest s)) :=
  step_serve hs

end Sys2Proof.Machine
end

section
/-! PROOFS. The statement about reset (70_reset_and_hazards.md). -/

namespace Sys2Proof.Machine

/-- Settles O10: the step is `toReset`, which keeps the responses and the events that the reset event leaves. -/
theorem resetAbandonsTheCommandInProgress : Obligations.ResetAbandonsTheCommandInProgress := by
  intro s p rest hs
  refine ⟨toReset (takeEvent rest s), step_eq_next_toReset hs, atReset_toReset _, ?_, toReset_rspValid _, ?_⟩
  · rw [toReset_responses, takeEvent_responses]
  · rw [toReset_host, takeEvent_host]

end Sys2Proof.Machine
end
